-- ==== Sys2Proof/Word.lean ====
section
/-! DEFINITION. The word types of the register space and of the fields that the rules count in bits. -/
namespace Sys2Proof

/-- A register (R382). -/
abbrev W32 := BitVec 32
/-- A device time in whole ticks of 4 ns (R280), or an address in host memory (R347). -/
abbrev W64 := BitVec 64
abbrev W16 := BitVec 16
abbrev W8 := BitVec 8
/-- A superframe sequence number, SEQ or USEQ (R58, R71). -/
abbrev Seq := BitVec 24

end Sys2Proof
end

