-- ==== Sys2Proof/Syntax.lean ====
section
/-! DEFINITION. The commands and events the block takes, one constructor of `Instr` per row of the table, and the
plain data they carry. What a physical measurement gives, and what the device's firmware or the link partner is free to
choose, arrives as an operand. -/
namespace Sys2Proof

/-- The device modes, in the order of R30 (codes of R360). -/
inductive Mode where
  | off | boot | hold | run | safe | maintain | reef | deep
  deriving DecidableEq, Repr

/-- The port states of R35, in the order of the codes of R138. -/
inductive PortSt where
  | down | training | up | reef1 | reef2 | isolated | fenced | retired
  deriving DecidableEq, Repr

/-- The line modes, in the order of the codes of R93. -/
inductive LineMode where
  | none | gl25 | gl12 | gl6 | t10g | t5g | t2g5 | t1g
  deriving DecidableEq, Repr

/-- The masters of R380. -/
inductive Master where
  | mgr | pf0 | pf1 | sb
  deriving DecidableEq, Repr

/-- The two physical functions of R326. -/
inductive Fn where
  | pf0 | pf1
  deriving DecidableEq, Repr

/-- How a read of host memory fails (R363). -/
inductive DmaError where
  | unsupportedRequest | completerAbort | poisoned | timeout
  deriving DecidableEq, Repr

/-- The end of a read of host memory. -/
inductive DmaRead (α : Type) where
  | data (x : α)
  | failed (e : DmaError)
  deriving DecidableEq, Repr

/-- The two host mailboxes of R398. -/
inductive Box where
  | s | n
  deriving DecidableEq, Repr

/-- The ring kinds, in the order of the codes of R356 (RING_ERROR). -/
inductive RingKind where
  | sq | cq | ev
  deriving DecidableEq, Repr

/-- The two references of R455. -/
inductive Ref where
  | xtal | refclk
  deriving DecidableEq, Repr

/-- What can become qualified for a PLL input (R457, R461). -/
inductive ClkSource where
  | ref (r : Ref) | partyWall | rport
  deriving DecidableEq, Repr

inductive Pll where
  | lpll | hpll
  deriving DecidableEq, Repr

/-- The wake sources of R493. -/
inductive WakeSrc where
  | sideband | line (n : Fin 16) | pcie
  deriving DecidableEq, Repr

/-- Firmware image kinds (R433). -/
inductive FwKind where
  | mgr | pc
  deriving DecidableEq, Repr

/-- The states of the activity monitor (R148), in the order of RICH (R177). -/
inductive Activity where
  | quiet | low | high
  deriving DecidableEq, Repr

/-- The events that take the device from REEF to RUN (R489). -/
inductive ReefExitCause where
  | port | hostAccess | fault | commit
  deriving DecidableEq, Repr

/-- What the hardware condition of a fault source does (R515): it holds for one moment, begins, or ends. -/
inductive FaultEdge where
  | moment | begins | ends
  deriving DecidableEq, Repr

/-- The kinds of functional access that can find an uncorrectable word (R544). -/
inductive MemAccess where
  | pcFetch | pcLoad | pcDma | mgrAccess
  | reorder (seq : Seq) (slot : BitVec 4)
  | upstream
  | coefficient (anchorLost : Bool) (src : Option (Fin 16)) (far : Bool)
  | handleEntry (h : W16)
  deriving DecidableEq, Repr

/-- The content found at an address the scrubber visits (R546). -/
inductive ScrubContent where
  | dead | reorderLive (seq : Seq) (slot : BitVec 4) | firmware | pcData | mgrData | upstreamLive
  | coefLive (anchorLost : Bool) (src : Option (Fin 16)) (far : Bool) | handleLive (h : W16)
  | cellarSnapshot (n : Fin 16) | cellarSave
  deriving DecidableEq, Repr

/-- What one scrub visit finds (R550). -/
inductive ScrubFinding where
  | clean | corrected | uncorrectable (c : ScrubContent) | lapEnd (ticks : Nat)
  deriving DecidableEq, Repr

/-- The straps of R430. -/
structure Straps where
  xstart : BitVec 2
  bootsrc : BitVec 2
  pairrole : Bool
  sbAddr : BitVec 3
  sbSecure : Bool
  refsel : Bool
  deriving DecidableEq, Repr

/-- A firmware image in a flash slot (R434): what the ROM's checks of it give. -/
structure FwImage where
  version : W32
  svn : W8
  keyOk : Bool
  sigOk : Bool
  deriving DecidableEq, Repr

/-- A boot record copy with a correct CRC (R433). `true` names slot B. -/
structure BootRec where
  count : W32
  mgrSlot : Bool
  mgrPrev : Bool
  pcSlot : Bool
  pcPrev : Bool
  mgrTrial : Bool
  pcTrial : Bool
  deriving DecidableEq, Repr

/-- The flash of R432: boot record copies (`none`: CRC wrong), firmware slots, configuration region, summary. -/
structure Flash where
  rec0 : Option BootRec
  rec1 : Option BootRec
  mgrA : Option FwImage
  mgrB : Option FwImage
  pcA : Option FwImage
  pcB : Option FwImage
  config : List W8
  /-- The bytes of the post-mortem summary, while one stands there (R361). -/
  summary : Option (List W8)
  deriving DecidableEq, Repr

/-- What the Cellar has lost when it is read after DEEP (R500): port snapshots, the save area, the device state record. -/
structure CellarErr where
  snaps : W16 := 0
  area : Bool := false
  record : Bool := false
  deriving DecidableEq, Repr

/-- The fields of a RASTER_SET (R292, R346). `lp` holds whole ticks in [31:16] and the fraction in [15:0]. -/
structure RasterParams where
  lp : W32
  lines : W16
  first : W16
  last : W16
  lockSrc : W8
  holdFrames : W8
  frame0 : W32
  anchor : W64
  deriving DecidableEq, Repr

/-- The opcodes of R346 with their parameters as the submission entry carries them. -/
inductive Cmd where
  | nop (echo : W32)
  | portConfig (port : W8) (valid : W16) (words : Vector W32 8)
  | portUp (port : W8)
  | portDown (port : W8)
  | portIsolate (port : W8)
  | portStatus (port : W8)
  | oamSend (port type len : W8) (payload : BitVec 352)
  | diagTdr (port : W8)
  | diagSignature (port op : W8) (addr : W64)
  | capture (port source start : W8) (length : W32) (addr : W64)
  | calRun (ports : W16)
  | bistRun (target : W8) (ports : W16) (tests : W32)
  | schedule (trig action : W8) (ports repeatN : W16) (time : W64) (arg : W32)
  | cancel (handle : W16)
  | laneSpare (port lane : W8)
  | configLoad (offset length : W32) (addr : W64)
  | configCommit
  | fwStage (image last : W8) (offset length : W32) (addr : W64)
  | fwActivate (images : W8)
  | timeSet (mode : W8) (c v : W64)
  | rasterSet (r : RasterParams)
  | faultAck (src : W16)
  | faultForce (src : W16) (level : W8)
  | countersRead (port set : W8) (addr : W64)
  | atticSetup (port depth : W8) (period : W16) (addr : W64)
  | dumpSetup (size : W32) (addr : W64)
  | sleep (target : W8)
  deriving DecidableEq, Repr

/-- What a submission entry carries beside its parameters, and where it was fetched (R337). -/
structure CmdHdr where
  fn : Fn
  ring : Fin 16
  tag : W16
  fence : Bool
  deadline : W64
  deriving DecidableEq, Repr

/-- What the decoder gives for one RS frame of a standard mode (R222): the symbols it corrected and the frame's blocks, or
uncorrectable. -/
inductive FrameResult where
  | ok (corrected : Nat) (blocks : List (BitVec 65))
  | uncorrectable (blocks : Nat)
  deriving DecidableEq, Repr

/-- One downstream codeword as it reaches the slicer: the 1,800 slicer inputs of a Gletik codeword, in units of 1/8192 (R51, R78),
or an RS frame of a standard mode. -/
inductive CwLine where
  | symbols (x : List Int)
  | frame (r : FrameResult)
  deriving DecidableEq, Repr

/-- When a codeword reaches the slicer: the measurement of the epoch whose superframe it begins, in units of 2^-8 tick (R49), and
whether its instant of playout has the same tick (R66). -/
structure Arrival where
  roundTrip : Option Nat
  inPlayoutTick : Bool
  deriving DecidableEq, Repr

/-- A training status block: the first 256 bits of a training superframe on the line, and the measurement of the epoch that the
superframe begins (R49, R113). -/
structure TsbLine where
  raw : BitVec 256
  roundTrip : Option Nat
  deriving DecidableEq, Repr

/-- The receiver's coefficient blocks as they stand (R144), stored values. -/
structure Coefs where
  ec : List Int
  ffe : List Int
  dfe : List Int
  deriving DecidableEq, Repr

/-- What reaches a receiver in one clock of 750 MHz (R142, R155): the ADC samples, in units of 2^-15 of the slicer's scale, the
symbols that the port itself transmits, and per source the symbols of its upstream and downstream streams on the bus. -/
structure RxClock where
  adc : List Int
  own : List Int
  bus : List (Fin 16 × List Int × List Int)
  deriving DecidableEq, Repr

/-- What phase 3 of a training gives (R107, R111, R118, R576): the sum of the squared slicer errors, in units of 2^-30, and the
symbols it is over (R117), the correlation of R111, T_CAM and the round trip in units of 2^-8 tick (R49), with the hub's precoder set
and seeds (R57, R80). The coefficients are those that the receiver's updates have reached (R145). -/
structure TrainResult where
  errSq : Nat
  symbols : Nat
  correlation : Int
  turn : W16
  roundTrip : Nat
  ntap : BitVec 5
  taps : List W16
  seedUs : BitVec 58
  seedDs : BitVec 58
  il : BitVec 12
  deriving DecidableEq, Repr

/-- One reflectometry finding (R572): type of R346, distance in cm, step in 0.1 ohm, reflection in 0.1 dB. -/
structure TdrFinding where
  type : BitVec 4
  cm : W16
  step : W16
  reflection : W16
  deriving DecidableEq, Repr

/-- One reflection of a step (R571, R572): the round-trip delay in ps, the reflected level in units of 1/1024 of the step, and the
change of impedance in 0.1 ohm. -/
structure TdrEcho where
  delay : Nat
  level : Int
  step : Int
  deriving DecidableEq, Repr

/-- One write or read as a master makes it (R382). -/
structure Access where
  master : Master
  bar2 : Bool
  offset : Nat
  deriving DecidableEq, Repr

/-- The commands and events of the block: one constructor per row of the table, in the table's order. -/
inductive Instr where
  -- reset, start-up and boot
  | porstNAssert
  | aonSupplyLoss
  | porstNRelease (straps : Straps) (flash : Option Flash)
  | startUpDelayExpiry (r : Ref)
  | sourceQualified (c : ClkSource)
  | lpllLock
  | hpllLock
  | firmwareVerify
  | endOfBoot
  | privilegedDeviceReset (m : Master) (key : W16)
  -- host port
  | perstNAssert
  | functionLevelReset (f : Fn)
  | busMasterEnableClear (f : Fn)
  | d3hotEntry (f : Fn)
  | pcieLinkDown
  -- rings
  | sqDoorbell (f : Fn) (k : Fin 16) (index : W16)
  | cqDoorbell (f : Fn) (k : Fin 16) (index : W16)
  | eventDoorbell (f : Fn) (index : W16)
  | ringEnable (f : Fn) (kind : RingKind) (k : Fin 16) (cfg : W32)
  | ringDisable (f : Fn) (kind : RingKind) (k : Fin 16) (cfg : W32)
  | submissionEntryFetch (f : Fn) (k : Fin 16) (entry : DmaRead (BitVec 512))
  | fencedCommandStart (h : W16)
  | finalCompletion (h : W16)
  | commandDeadline (h : W16)
  | coalesceTimer (f : Fn) (k : Fin 16)
  | msixUnmask (f : Fn) (vector : Fin 64)
  -- opcodes
  | nop (h : CmdHdr) (echo : W32)
  | portConfig (h : CmdHdr) (port : W8) (valid : W16) (words : Vector W32 8)
  | portUp (h : CmdHdr) (port : W8)
  | portDown (h : CmdHdr) (port : W8)
  | portIsolate (h : CmdHdr) (port : W8)
  | portStatus (h : CmdHdr) (port : W8)
  | oamSend (h : CmdHdr) (port type len : W8) (payload : BitVec 352)
  | diagTdr (h : CmdHdr) (port : W8)
  | diagSignature (h : CmdHdr) (port op : W8) (addr : W64)
  | capture (h : CmdHdr) (port source start : W8) (length : W32) (addr : W64)
  | calRun (h : CmdHdr) (ports : W16)
  | bistRun (h : CmdHdr) (target : W8) (ports : W16) (tests : W32)
  | schedule (h : CmdHdr) (trig action : W8) (ports repeatN : W16) (time : W64) (arg : W32)
  | cancel (h : CmdHdr) (handle : W16)
  | laneSpare (h : CmdHdr) (port lane : W8)
  | configLoad (h : CmdHdr) (offset length : W32) (addr : W64)
  | configCommit (h : CmdHdr)
  | fwStage (h : CmdHdr) (image last : W8) (offset length : W32) (addr : W64)
  | fwActivate (h : CmdHdr) (images : W8)
  | timeSet (h : CmdHdr) (mode : W8) (c v : W64)
  | rasterSet (h : CmdHdr) (r : RasterParams)
  | faultAck (h : CmdHdr) (src : W16)
  | faultForce (h : CmdHdr) (src : W16) (level : W8)
  | countersRead (h : CmdHdr) (port set : W8) (addr : W64)
  | atticSetup (h : CmdHdr) (port depth : W8) (period : W16) (addr : W64)
  | dumpSetup (h : CmdHdr) (size : W32) (addr : W64)
  | sleep (h : CmdHdr) (target : W8)
  | atticPeriodic (n : Fin 16)
  -- register access, locks, mailboxes
  | registerWrite (a : Access) (size : Nat) (value : W64)
  | rcRead (a : Access) (size : Nat)
  | wideSelWrite (m : Master) (sel : W32)
  | wideD3Read (m : Master)
  | lockRead (m : Master) (i : Fin 32)
  | lockRelease (m : Master) (i : Fin 32) (value : W32)
  | lockFree (m : Master) (mask : W32)
  | mbxH2dWrite (m : Master) (b : Box) (word : W32)
  | mbxD2hRead (m : Master) (b : Box)
  | mbxD2hWrite (b : Box)
  | mbxIeWrite (m : Master) (b : Box) (value : W32)
  | ping (b : Box)
  | ringStop (b : Box)
  | mbxFaultAck (b : Box)
  | maintainEntry (b : Box)
  | maintainEnd (b : Box)
  | safeResume (b : Box)
  | configStreamStart (b : Box)
  | configStreamData (b : Box)
  | configStreamCommit (b : Box)
  | configStreamAbort (b : Box)
  | configStreamTimeout
  | reservedMailboxType (b : Box)
  | sidebandAbandon (write : Bool) (addr : W16)
  | parityMismatch (offset : BitVec 22)
  | parityRewrite
  -- level recovery
  | mgrWdog
  | mgrRestartDone
  | mgrStuck
  | pcWdog (n : Fin 16)
  | pcRestartDone (n : Fin 16)
  | firmwareConfirmed (k : FwKind)
  -- clocks
  | referenceLoss (r : Ref)
  | lpllInputLoss
  | holdoverTimeout
  | pllOutputLoss (p : Pll)
  | pcieRefLoss
  | rcDrift
  | slewComplete
  | clockSwitchForced
  | clockResume
  | resume (m : Master)
  | refPri (m : Master)
  | altEnSet (m : Master)
  | altEnClear (m : Master)
  | lpllCandidateChange (m : Master) (value : W32)
  -- faults
  | faultOccurrence (src : BitVec 10) (e : FaultEdge)
  | faultEventPost
  | fltForceWrite (m : Master) (group : Nat) (value : W16)
  | dumpTimeout
  | temperatureSample (celsius : Int)
  -- power
  | avsVoltageRequest (m : Master) (volt : W8)
  | avsFrequencyRequest (m : Master) (freq : BitVec 2)
  | avsTargetReached
  | avsTimeout
  | avsReadback (millivolt : Nat)
  | padRelease (m : Master) (mask : BitVec 19)
  | devIdleExpiry
  | reefExitDevice (c : ReefExitCause)
  | longIdleExpiry
  | deepEntryPowerOff
  | wakeSourceFire (w : WakeSrc)
  | sidebandAddressMatch (addr : BitVec 7)
  | peWakeTimeout
  | peWakeRelease
  -- host lanes
  | laneEnable (m : Master) (lane : Fin 20) (value : W32)
  | loopbackSelect (m : Master) (lane : Fin 20) (value : W32)
  | prbsEnable (m : Master) (lane : Fin 20) (value : W32)
  | txeqWrite (m : Master) (lane : Fin 20) (value : W32)
  | laneAdaptDone (lane : Fin 20) (scan : Vector (W8 × BitVec 6) 16)
  | hostMarker (lane : Fin 20) (bits : Option (List Bool)) (inPlace : Bool)
  | upstreamBlock (lane : Fin 20) (bits : List Bool)
  | pauseRepeat (n : Fin 16)
  | downstreamMarker (lane : Fin 20)
  | laneLos (lane : Fin 20)
  | laneTx (lane : Fin 20)
  | eyeMonitorUpdate (lane : Fin 20) (eye : W8) (heye : BitVec 6) (dfe : List Int)
  | eyeLow (lane : Fin 20)
  | laneRealigned (lane : Fin 20)
  | hostTrafficWake (n : Fin 16)
  -- bring-up
  | retryBackoffExpiry (n : Fin 16)
  | preparationDone (n : Fin 16) (failing : List (Fin 8 × Nat × Nat)) (vref rext : Int) (trims : List W8)
  | beaconFrame (n : Fin 16)
  | answerFrame (n : Fin 16) (sync : W64) (info : BitVec 192)
  | beaconWindowExpiry (n : Fin 16)
  | phaseTimeout (n : Fin 16)
  | attemptTimeout (n : Fin 16)
  | upstreamSuperframeStart (n : Fin 16)
  | trainingStatusBlock (n : Fin 16) (tsb : TsbLine)
  | downstreamTrainingDone (n : Fin 16) (r : TrainResult)
  -- downstream reception
  | codewordReceived (n : Fin 16) (seq : Seq) (slot : BitVec 4) (r : CwLine) (arrival : Arrival)
  | downstreamServiceCodeword (n : Fin 16) (msg : BitVec 3250) (roundTrip : Option Nat)
  | fecLockLossTimeout (n : Fin 16)
  | drainEnd (n : Fin 16)
  | reqMapBuild (n : Fin 16)
  | playout (n : Fin 16) (seq : Seq) (slot : BitVec 4)
  | lossEpisodeEnd (n : Fin 16)
  | loadWindowEnd (n : Fin 16)
  | freshnessTimeout (n : Fin 16) (stream : Fin 4)
  | marginUpdate (n : Fin 16) (window : List RxClock)
  | slowPeriodExpiry (n : Fin 16)
  | heldUpdateTimeout (n : Fin 16)
  | activityStateChange (n : Fin 16) (energy trained : Nat) (decisions : List Int)
  -- Shroud
  | crosstalkSourceValid (src : Fin 16) (far : Bool)
  | crosstalkSourceInvalid (src : Fin 16) (far : Bool)
  | shroudTrainTimeout (n src : Fin 16) (far : Bool)
  | weakRetryTimeout (n src : Fin 16) (far : Bool)
  | rampComplete (n src : Fin 16) (far : Bool)
  | keepTimeout (n src : Fin 16) (far : Bool)
  | leaveEnd (n : Fin 16)
  -- downshift, OAM, Reef
  | glkSwitchWrite (n : Fin 16)
  | oamTimeout (n : Fin 16) (tag : W8)
  | downshiftReevaluate (n : Fin 16)
  | portIdleExpiry (n : Fin 16)
  | reef2TimerExpiry (n : Fin 16)
  | refreshSuperframe (n : Fin 16) (correctable : Bool) (rx : List RxClock)
  | wakeToneDetected (n : Fin 16)
  | wakeToneEnd (n : Fin 16)
  -- standard modes
  | autonegResolved (n : Fin 16) (mode : LineMode) (master eee oam : Bool)
  | linkStatusOk (n : Fin 16) (rx : List RxClock) (errSq symbols : Nat)
  | linkStatusFail (n : Fin 16)
  | standardTrainingFailure (n : Fin 16)
  | stdFrameWake (n : Fin 16)
  | tc10SleepRequest (n : Fin 16) (frameWaiting : Bool)
  | tc10SleepAnswer (n : Fin 16) (ack : Bool)
  | tc10WakePulse (n : Fin 16)
  | lpiReceived (n : Fin 16) (fromLine : Bool) (lpi : Bool)
  -- Halyard
  | ppsEdge (rising : Bool)
  | ppsMiss
  | slewEnd
  | fsyncEdge (rising : Bool)
  | rasterEdgeTimeout
  | rasterHoldoverExpiry
  | rasterTakeover
  | masterFrameStart
  | fsyncOutPulseEnd
  | portRasterTimeout (n : Fin 16)
  | rasterLockRetry (n : Fin 16)
  | blankingOpen (n : Fin 16)
  | triggerCommandSend (entry : Fin 4096)
  | adaptStep (entry : Fin 4096)
  | calStep (entry : Fin 4096)
  | bistSlice (entry : Fin 4096) (failing : Option (BitVec 7))
  | reefEnter (entry : Fin 4096)
  | reefExit (entry : Fin 4096)
  | trigOut (entry : Fin 4096)
  | modeSwitch (entry : Fin 4096)
  | captureStart (entry : Fin 4096)
  | timestamp (entry : Fin 4096)
  | calWaitExpiry (entry : Fin 4096)
  -- diagnostics, calibration, ageing
  | calTempSample (n : Fin 16) (celsius : W8)
  | calRunEnd (n : Fin 16) (vref rext : Int) (codes : List W8)
  | reflectogramUpdate (n : Fin 16)
  | reflectCompareHourly (n : Fin 16)
  | shieldMeasure (n : Fin 16) (power : Int)
  | tdrComplete (n : Fin 16) (echoes : List TdrEcho) (energy trained : Nat)
  | ageMeasurement (cycles : List (Nat × Nat))
  | plannerHourly (n : Fin 16)
  -- memory integrity and self-test
  | scrubVisit (x : Fin 132) (addr : Nat) (f : ScrubFinding)
  | correctedRead (x : Fin 132) (addr : Nat)
  | uncorrectableAccess (x : Fin 132) (addr : Nat) (a : MemAccess)
  | trackerWriteBack (x : Fin 132) (addr : Nat)
  | substitutionComplete (x : Fin 132) (array row : Nat)
  | pageReloadDone (x : Fin 132) (ok : Bool)
  | insvcPassTimer
  | logicBistEnd (n : Fin 16) (failing : W32)
  | privTestStart (i : Fin 4)
  | privTestEnd (i : Fin 4) (failed : Bool) (src reader : Fin 16) (rows : List (Fin 132 × Fin 8 × Fin 128))
  -- redundant pair
  | joinEnd
  | heartbeatSend
  | heartbeatReceived (msg : BitVec 256)
  | heartbeatLoss
  | pwLaneTimeout
  | confirmExpiry
  | pairHoldReevaluate
  | pairEnable (m : Master) (value : W32)
  -- the remaining rows
  | hostSignalDetect (lane : Fin 20)
  | blockLockChange (lane : Fin 20) (locked inverted : Bool)
  | stdOamMessage (n : Fin 16) (msg : W64)
  | tc10SleepTimeout (n : Fin 16)
  | perstNRelease
  | pcieRefReturn
  | pointOfNoReturn (ratio : Nat) (lost : CellarErr)
  | forecastLeadReached (n : Fin 16)
  | bufferReadCompletion (h : W16) (data : DmaRead (List W8)) (failOffset : W16)
  | flashWriteDone (ok : Bool)
  deriving DecidableEq, Repr

end Sys2Proof
end

