-- ==== Sys2Proof/Config.lean ====
section
/-! DEFINITION. What one piece of silicon fixes, and the values the rules leave open. None of these has a body: a
statement about the block holds whatever they are. -/
namespace Sys2Proof.Config

/-! ### One-time programmed and hard-wired values -/

/-- The die identifier of a device. -/
opaque dieId : W64
/-- The revision of the OTP map. -/
opaque otpMapRev : W32
/-- The set point that the OTP gives, in the code of AVSBus; `partVset` holds it to the range that the OTP guarantees (R483). -/
opaque vsetOtp : W8
/-- The factory trim of a port: code k of port n (R581, R584). -/
opaque factoryTrim : Nat → Nat → W8
/-- The SVN minimum that the OTP holds at the first power-up (R434). -/
opaque svnMin : W8
/-- Fuse records that the OTP already holds (R555): memory, array and row. -/
opaque fuses : List (Nat × Nat × Nat)
/-- What the ROM's checks give for the bytes of a firmware image, if they are one (R434). -/
opaque fwImageOf : List W8 → Option FwImage
/-- The source address of the device's PAUSE frames (R253). -/
opaque pauseSource : BitVec 48
/-- The internal delay of a port's reflectometry, calibrated at the factory, in ps (R570). -/
opaque portDelay : Nat → Nat
/-- The factory ratio r_0 of an ageing monitor, in units of 2^-16 (R586). -/
opaque ageRatio : Nat → Nat
/-- The version of the boot ROM. -/
opaque bootRomVersion : W32
/-- The PCI vendor identifier of Kwenum (R410). -/
opaque vendorId : W16

/-! ### Values the rules leave open -/

/-- An open 32-bit value, fresh for each number (assumption 2). -/
opaque freeWord : Nat → W32
/-- An open natural number, fresh for each number; the rule that uses it bounds it. -/
opaque freeNat : Nat → Nat
/-- The base latency of a host coding and line mode, by their codes, in units of 2^-4 tick (R200, R224, R210). -/
opaque baseLatency : Nat → Nat → Nat
/-- The decision on a slicer input that stands on a threshold: the upper level (R78, R143). -/
opaque sliceUp : Int → Bool
/-- An open seed (R57). -/
opaque freeSeed : Nat → BitVec 58
/-- Open coefficients that a controller derives: the set's number, and the index (R129). -/
opaque freeCoef : Nat → Nat → Int
/-- A precoder tap that a controller derives (R129). -/
opaque freeTap : Nat → Nat → W16
/-- Whether an updated coefficient is rounded up, where the update is no whole number of stored units: the numerator, and the bits
below the unit (R145). -/
opaque roundUp : Int → Nat → Bool
/-- The margin and the gain that a window without any slicer error shows, for which the formulas give none (R117, R171). -/
opaque perfectMargin : Int
/-- The estimated coupling of a source at a reader, by the pair's number, fresh for each value of the model's counter (R182). -/
opaque coupling : Nat → Nat → W8
/-- A register of the Clause 45 space of a standard mode that nothing has written (R236). -/
opaque clause45 : Nat → BitVec 21 → W16
/-- The factor of the 90 % confidence bound for a number of degrees of freedom, in units of 2^-16 (R589). -/
opaque confidence : Nat → Nat
/-- A capture's content: the open data that a CAPTURE writes, by operation number and byte (R580). -/
opaque captureByte : Nat → Nat → W8
/-- The length of a section of a dump, by its type (R361). -/
opaque dumpLength : Nat → Nat → Nat
/-- One byte of a memory that a dump or a read shows and the rules do not give. -/
opaque freeByte : Nat → Nat → W8

end Sys2Proof.Config
end

