-- ==== Sys2Proof/Machine/State.lean ====
section
/-! DEFINITION. The state of the block: every register, queue, buffer, counter, mode and pin the rules give it, as plain
data, and the queue of the commands that wait. Registers that software writes stand whole, as words; a field the
rules call live is computed from the state when it is read. -/
namespace Sys2Proof.Machine

/-- Why a step stops with a fault. -/
inductive Fault where
  /-- An operand no writer of the rules could give (`WellFormed.lean` says which). No meaning raises it: a row with such an operand
  changes nothing (assumption 1). Safe: the block is never offered such an operand. -/
  | illFormed
  deriving DecidableEq, Repr

/-- Why a step is refused. -/
inductive Refusal where
  /-- A command that has no meaning yet; answered by the arm of `exec` that names it. Safe. -/
  | notModelled (mnemonic : String)
  deriving DecidableEq, Repr

/-- A timestamp with its COARSE flag (R280). -/
structure Stamp where
  dt : W64 := 0
  frac : W16 := 0
  coarse : Bool := false
  deriving DecidableEq, Repr

/-- A raster position (R288); `unavail` is RASTER_UNAVAILABLE, and the position is then 0 (R355). -/
structure RPos where
  frame : W32 := 0
  line : W16 := 0
  phase : W16 := 0
  unavail : Bool := true
  deriving DecidableEq, Repr

/-- What leaves the block. -/
inductive Output where
  /-- One memory-write TLP (R333). -/
  | memWrite (f : Fn) (addr : W64) (data : List W8)
  /-- One MSI-X message (R368). -/
  | msix (f : Fn) (vector : Nat)
  /-- An error reported through AER, with its type (R366, R387). -/
  | aer (f : Fn) (e : DmaError)
  /-- The data of a read: the master, and the words or the error response of R387. -/
  | readData (m : Master) (data : W64)
  | errorResponse (m : Master)
  /-- An acknowledge or not-acknowledge bit of the sideband target while DEEP holds its logic (R409, R495). -/
  | sbAck (ok : Bool)
  /-- A read of host memory that the device starts (R349, R579). -/
  | dmaRead (h : W16) (addr : W64) (length : Nat)
  /-- The post-mortem dump (R360, R361, R530): to host memory or to flash, its address and its bytes, the last four of which are the
  commit word, written last. -/
  | dump (toFlash : Bool) (addr : W64) (bytes : List W8)
  /-- The flash summary copied into the registered region (R531): its address and its bytes. -/
  | dumpCopied (addr : W64) (bytes : List W8)
  /-- Words of flash written: the kind of write of R432. -/
  | flashWrite (what : Nat)
  /-- One beacon frame: its 1,500 levels (R43, R94). -/
  | beacon (n : Fin 16) (levels : List Int)
  /-- Slots 0–2 of one upstream superframe: its USEQ, the time its first symbol leaves, its 5,400 levels (R42, R71). -/
  | upstream (n : Fin 16) (useq : Seq) (stamp : Stamp) (levels : List Int)
  /-- Slot 3 of that superframe: the 1,800 levels of the upstream service codeword (R72). -/
  | upService (n : Fin 16) (levels : List Int)
  /-- One upstream training superframe: its USEQ and its 7,200 levels (R103, R104). -/
  | training (n : Fin 16) (useq : Seq) (levels : List Int)
  /-- The wake tone, by one of its periods (R86). -/
  | wakeTone (n : Fin 16) (period : List Int)
  | tc10Pulse (n : Fin 16)
  | tc10Sleep (n : Fin 16)
  | tc10Answer (n : Fin 16) (ack : Bool)
  /-- Clause 98: the modes, EEE and OAM that are advertised, and the code of MS (R216, R219). -/
  | autoneg (n : Fin 16) (modes : W8) (eee oam : Bool) (ms : BitVec 2)
  | pmaTraining (n : Fin 16) (mode : LineMode) (master : Bool)
  /-- Blocks, or nothing, that a playout delivers to the host lane (R186). -/
  | laneBlocks (lane : Nat) (blocks : List (BitVec 65))
  /-- An errored block sequence (R195). -/
  | laneErrored (lane : Nat) (blocks : Nat)
  | laneIdle (lane : Nat) (blocks : Nat)
  /-- One Byham marker (R245). -/
  | laneMarker (lane : Nat) (bits : BitVec 80)
  /-- Bits at the pins of a transmitter, first on the wire first (R240–R245, R250). -/
  | laneBits (lane : Nat) (bits : List Bool)
  /-- Fill words, or the coding's idle, until the next unit (R254, R265). -/
  | laneFill (lane : Nat)
  | laneTrainingBurst (lane : Nat)
  /-- A PAUSE that has taken its place in the stream (R253). -/
  | lanePause (lane : Nat) (time : W16)
  /-- Blocks that a standard-mode port takes from its lane for the line PCS (R225). -/
  | stdBlocks (n : Fin 16) (blocks : List (BitVec 65))
  /-- The quiet-refresh cycle on the line begins or ends (R226). -/
  | quietRefresh (n : Fin 16) (on : Bool)
  /-- A PMA test mode is selected (R214, R216, R236): its code, 0 for none. -/
  | pmaTest (n : Fin 16) (mode : Nat)
  /-- A Clause 149 or Clause 97 OAM message (R236). -/
  | stdOam (n : Fin 16) (msg : W64)
  /-- A write of the set point over AVSBus (R484). -/
  | avs (vset : W8)
  | heartbeat (msg : BitVec 256)
  | otpWrite (what value : Nat)
  | pciReset (f : Fn)
  deriving DecidableEq, Repr

/-! ### Faults (14) -/

/-- The registers of one group of fault sources (R516, R538–R540); `hwLive` is the conditions that hold now. -/
structure FltGroup where
  lat : W16 := 0
  hwLive : W16 := 0
  raised : W16 := 0
  lvl : W32 := 0
  force : W16 := 0
  deriving DecidableEq, Repr

/-- One occurrence as the history and the queue to the manager hold it (R517, R527). -/
structure Occ where
  stamp : Stamp := {}
  pos : RPos := {}
  src : BitVec 10
  level : BitVec 2
  forced : Bool := false
  escalated : Bool := false
  /-- The source was raised before. -/
  again : Bool := false
  /-- The handle that the FAULT event carries (R544). -/
  handle : W16 := 0xFFFF
  deriving DecidableEq, Repr

/-- FLT_HALT_STAT and the HALT in progress (R530, R537); `region` is what DUMP_SETUP registered. -/
structure HaltSt where
  state : BitVec 2 := 0
  truncated : Bool := false
  rom : Bool := false
  flashValid : Bool := false
  cause : BitVec 10 := 0
  pending : Bool := false
  halted : Bool := false
  /-- The bytes of the dump whose write to flash is under way. -/
  flashing : Option (List W8) := none
  stamp : Stamp := {}
  pos : RPos := {}
  mode : Mode := .off
  region : Option (W64 × W32) := none
  deriving DecidableEq, Repr

structure FltSt where
  dev : Vector FltGroup 9 := Vector.replicate 9 {}
  port : Vector FltGroup 16 := Vector.replicate 16 {}
  lane : Vector FltGroup 20 := Vector.replicate 20 {}
  cfg : W32 := 0x5
  /-- FLT_FIRST: the captured occurrence and COUNT (R526). -/
  first : Option Occ := none
  firstCount : W8 := 0
  /-- Newest first, at most 16 (R527). -/
  hist : List Occ := []
  /-- Oldest first, at most 64 (R517). -/
  queue : List Occ := []
  total : W16 := 0
  evLost : W8 := 0
  halt : HaltSt := {}
  deriving DecidableEq, Repr

/-! ### Rings, handles and interrupts (09) -/

inductive RingSt where
  | off | run | stopping | error
  deriving DecidableEq, Repr

/-- A submission ring: `prod` is the host's index, `cons` the device's; `held` is a doorbell value held while the manager
restarts (R27, R335). -/
structure SqRing where
  base : W64 := 0
  cfg : W32 := 0
  st : RingSt := .off
  cause : BitVec 4 := 0
  prod : W16 := 0
  cons : W16 := 0
  held : Option W16 := none
  deriving DecidableEq, Repr

/-- A completion ring: `sinceMsg` counts the completions since its last message (R368). -/
structure CqRing where
  base : W64 := 0
  cfg : W32 := 0
  st : RingSt := .off
  cause : BitVec 4 := 0
  prod : W16 := 0
  cons : W16 := 0
  phase : Bool := true
  held : Option W16 := none
  sinceMsg : Nat := 0
  deriving DecidableEq, Repr

structure EvRing where
  base : W64 := 0
  cfg : W32 := 0x1000_0000
  st : RingSt := .off
  cause : BitVec 4 := 0
  prod : W16 := 0
  cons : W16 := 0
  phase : Bool := true
  held : Option W16 := none
  lost : BitVec 14 := 0
  seq : W32 := 0
  deriving DecidableEq, Repr

/-- An entry of the MSI-X table (R326). -/
structure MsixEntry where
  addr : W64 := 0
  data : W32 := 0
  masked : Bool := true
  pending : Bool := false
  deriving DecidableEq, Repr

structure FnSt where
  sq : Vector SqRing 16 := Vector.replicate 16 {}
  cq : Vector CqRing 16 := Vector.ofFn fun k => { cfg := BitVec.ofNat 32 (k.val * 0x100_0000) }
  ev : EvRing := {}
  msix : Vector MsixEntry 64 := Vector.replicate 64 {}
  timeouts : W16 := 0
  near : W16 := 0
  deriving DecidableEq, Repr

/-- How an operation ended: what its FINAL completion holds (R338). -/
structure OpResult where
  status : W16
  detail : W16 := 0
  r0 : W32 := 0
  r1 : W32 := 0
  stamp : Stamp := {}
  deriving DecidableEq, Repr

/-- A live handle: the command, when it was accepted, what it has gathered, and how it ended (R341, R343). -/
structure Op where
  handle : W16
  fn : Fn
  ring : Fin 16
  /-- The completion ring bound to its ring when it was accepted (R336, R339). -/
  cq : Fin 16
  tag : W16
  cmd : Cmd
  fence : Bool := false
  started : Bool := true
  /-- The DT at which the deadline passes (R344). -/
  deadline : W64 := 0
  order : Nat := 0
  /-- The ring's consumer index after the command was consumed (R338). -/
  sqHead : W16 := 0
  /-- What is left to do: ports, steps or tests, per command. -/
  left : Nat := 0
  fails : W32 := 0
  fails1 : W32 := 0
  /-- The read of its buffer ended while the manager restarted: the data, if it came, and where it failed (R28). -/
  arrived : Option (DmaRead (List W8) × W16) := none
  final : Option OpResult := none
  /-- Its FINAL completion has found the completion ring full (R343). -/
  heldBack : Bool := false
  deriving DecidableEq, Repr

structure HostSt where
  pf0 : FnSt := {}
  pf1 : FnSt := {}
  hquota : W32 := 4096
  ops : List Op := []
  lastHandle : W16 := 0xFFFE
  orderNext : Nat := 0
  /-- The submission ring that gave the last entry: 0–15 of PF0, 16–31 of PF1 (R334). -/
  lastRing : Fin 32 := 31
  /-- PERST_N asserted. -/
  perst : Bool := true
  deriving DecidableEq, Repr

/-! ### Register access, wide reads, locks and mailboxes (10) -/

/-- A master's wide-read set and its copy (R175, R390): the words of the copy, four to a chunk. -/
structure WideSet where
  sel : W32 := 0
  valid : Bool := false
  denied : Bool := false
  err : Bool := false
  d : Vector W32 4 := Vector.replicate 4 0
  copyKey : Option W16 := none
  copy : List W32 := []
  /-- DT of the last write of WIDE_SEL, in whose tick BUSY stands (R391). -/
  selAt : Option W64 := none
  deriving DecidableEq, Repr

structure AccSt where
  wideMgr : WideSet := {}
  widePf0 : WideSet := {}
  widePf1 : WideSet := {}
  wideSb : WideSet := {}
  /-- Owner's master code, 0 free (R426). -/
  locks : Vector (BitVec 4) 32 := Vector.replicate 32 0
  rdOff : Bool := false
  wrOff : Bool := false
  partialWr : Bool := false
  errMaster : BitVec 3 := 0
  errAddr : W32 := 0
  parCount : W8 := 0
  parAddr : BitVec 22 := 0
  parFrozen : Bool := false
  /-- Offsets whose parity mismatch awaits the manager's rewrite (R389). -/
  parWait : List (BitVec 22 × W32) := []
  deriving DecidableEq, Repr

/-- One host mailbox (R398–R404). `pend` is the conditions pending for the sideband: bit 0 D2H, 1 FLUSH, 2 EMPTY. -/
structure Mbx where
  h2d : W32 := 0
  h2dFull : Bool := false
  d2h : W32 := 0
  d2hFull : Bool := false
  overrun : Bool := false
  flushed : Bool := false
  h2dEpoch : BitVec 4 := 0
  d2hEpoch : BitVec 4 := 0
  wrSrc : BitVec 2 := 0
  d2hDst : BitVec 2 := 0
  ie : BitVec 9 := 0b000_111_111
  pend : BitVec 3 := 0
  /-- Words the manager holds until D2H is free, with their receivers (R399), oldest first. -/
  held : List (W32 × BitVec 2) := []
  /-- DT of a manager restart's flush, and of the rise of OVERRUN, for a write in the tick of the flush (R401). -/
  flushedAt : Option W64 := none
  overrunAt : Option W64 := none
  deriving DecidableEq, Repr

/-! ### Configuration images and firmware (11) -/

structure CfgSt where
  /-- The manager's image buffer: the bytes held, by offset, sorted (R349). -/
  image : List (Nat × W8) := []
  src : BitVec 2 := 0
  persisted : Bool := false
  err : W8 := 0
  section_ : W8 := 0xFF
  skipped : W8 := 0
  imageVer : W32 := 0
  imageId : W32 := 0
  /-- The word stream of R447: the mailbox, its writer's host code, and the words received. -/
  stream : Option (Box × BitVec 2) := none
  streamLen : Nat := 0
  streamWords : Nat := 0
  /-- Firmware chunks staged: kind, and the bytes held, by offset, sorted (R349). -/
  staged : Option (FwKind × List (Nat × W8)) := none
  /-- An image's write to flash is under way (R446): its command, 0xFFFF for the word stream's, and its commit word. -/
  persistOp : Option W16 := none
  persistWord : W32 := 0
  deriving DecidableEq, Repr

structure BootSt where
  mgrSlot : Bool := false
  pcSlot : Bool := false
  mgrTrial : Bool := false
  pcTrial : Bool := false
  fallback : Bool := false
  reverted : Bool := false
  mgrSvn : W8 := 0
  pcSvn : W8 := 0
  otpSvn : W8 := 0
  mgrVer : W32 := 0
  pcVer : W32 := 0
  verified : Bool := false
  noImage : Bool := false
  /-- A FW_ACTIVATE waits for the processors it restarted (R450). -/
  activateOp : Option W16 := none
  strap : Straps := ⟨0, 0, false, 0, false, false⟩
  flash : Flash := ⟨none, none, none, none, none, none, [], none⟩
  deriving DecidableEq, Repr

/-! ### Clocks and power (12, 13) -/

inductive PllSt where
  | off | acquire | locked | slew | holdover
  deriving DecidableEq, Repr

structure ClkSt where
  cfg : W32 := 0x803C_1400
  lpllCfg : W32 := 0x3C00_0000
  refAct : Ref := .xtal
  priStarted : Bool := false
  altStarted : Bool := false
  priQual : Bool := false
  altQual : Bool := false
  pwQual : Bool := false
  rportQual : Bool := false
  lpll : PllSt := .off
  hpll : PllSt := .off
  /-- The source the LPLL takes its input from. -/
  lpllIn : Option ClkSource := none
  /-- The RC oscillator, until LPLL has locked (R466). -/
  coreSrc : BitVec 2 := 2
  safeCause : BitVec 3 := 0
  forced : W8 := 0
  gateOvr : W8 := 0
  monLive : BitVec 7 := 0
  monTrip : BitVec 7 := 0
  gateRun : W32 := 0x3_FFFF
  gateSleep : W32 := 0x3_FFFF
  gateDeep : W32 := 0
  holdTimer : Bool := false
  /-- The tick at which HPLL last locked, from which the monitors are clean (R468). -/
  cleanAt : W64 := 0
  /-- The tick at which the alternate was last taken with nothing else in force (R467). -/
  refAt : Option W64 := none
  deriving DecidableEq, Repr

structure PwrSt where
  cfg : W32 := 0x0064_000E
  wakeEn : W32 := 0x3_FFFF
  aborted : Bool := false
  late : Bool := false
  wakePcie : Bool := false
  wakeSb : Bool := false
  wakePort : W16 := 0
  cellarOk : Bool := true
  fromDeep : Bool := false
  deeps : W8 := 0
  pllOn : Bool := false
  coreOn : Bool := false
  laneOn : Bool := false
  pwOn : Bool := false
  padCore : Bool := false
  padPw : Bool := false
  padLane : Bool := false
  padPort : W16 := 0
  padErr : Bool := false
  deriving DecidableEq, Repr

structure AvsSt where
  cfgHost : Bool := false
  vset : W8 := 0
  volt : W8 := 0
  freq : BitVec 2 := 0
  busy : Bool := false
  err : BitVec 3 := 0
  /-- The set point that a change in progress goes to. -/
  target : Option (W8 × BitVec 2) := none
  /-- DEEP entry (R491): 0 none, 1 requested, 2 past the point of no return. -/
  deepStep : BitVec 2 := 0
  deepOp : Option W16 := none
  /-- DT of the point of no return of a SLEEP, and where its completion has been written: function, completion ring and the
  producer index after it (R354). -/
  deepSent : Option (W64 × Option (Fn × Fin 16 × W16)) := none
  /-- The RC ratio of R286, DT ticks per RC cycle in units of 2^-16. -/
  rcRatio : Nat := 0
  peWake : Bool := false
  /-- The source that starts the wake from DEEP (R492, R496). -/
  wakeBy : Option WakeSrc := none
  /-- What of the Cellar a restore finds lost (R500). -/
  cellar : CellarErr := {}
  deriving DecidableEq, Repr

/-! ### Halyard (08) -/

inductive RasterSt where
  | free | acquire | locked | holdover | unlocked
  deriving DecidableEq, Repr

structure DtSt where
  running : Bool := false
  dt : W64 := 0
  frac : W16 := 0
  coarse : Bool := false
  /-- The uncertainty, in units of 0.1 ps (R286, R312). -/
  unc : Nat := 0
  epoch : W8 := 0
  ppsMiss : W8 := 0
  locked : Bool := false
  cfg : W32 := 0x010A_0000
  /-- The rate adjustment in force and the trim under it, in ppb (R284, R313). -/
  adj : Int := 0
  trim : Int := 0
  /-- What the accumulator has not yet carried, in 10^-9 of 2^-16 tick. -/
  rest : Int := 0
  /-- What a slew has still to remove, in 10^-9 of 2^-16 tick, and the TIME_SET that runs it. -/
  slew : Int := 0
  slewOp : Option W16 := none
  /-- The last four PPS_IN captures, newest first (R284). -/
  caps : List W64 := []
  capCount : Nat := 0
  /-- The last captures of PPS_IN and FSYNC_IN (R309). -/
  lastPps : Stamp := {}
  lastFsync : Stamp := {}
  deriving DecidableEq, Repr

structure RasterReg where
  st : RasterSt := .unlocked
  lp : W32 := 0
  /-- The LP that RASTER_SET gave, before slews. -/
  lpNom : W32 := 0
  lines : W16 := 0
  first : W16 := 0
  last : W16 := 0
  lockSrc : BitVec 2 := 0
  holdFrames : W8 := 60
  /-- ANCHOR in 2^-16 tick, and its frame (R288). -/
  anchor : Int := 0
  frame0 : W32 := 0
  steps : W8 := 0
  edgeBad : W8 := 0
  /-- Consecutive good edges in ACQUIRE, and the last edge accepted. -/
  edges : Nat := 0
  lastEdge : Option Int := none
  /-- A raster that has not taken over yet, and its command (R292). -/
  next : Option (RasterParams × Option W16) := none
  deriving DecidableEq, Repr

/-- A calendar entry (R300): `fallback` is its fallback DT, `waiting` that it is due and waits (R302, R304). -/
structure CalEntry where
  idx : Nat
  trig : BitVec 3
  time : W64
  rep : W16
  ports : W16
  action : W8
  arg : W32
  handle : W16
  fn : Fn := .pf0
  fallback : W64 := 0
  waiting : Bool := false
  /-- Ports whose trigger command has been queued (R307). -/
  sent : W16 := 0
  /-- Per port of a BLANK entry: a DT, and whether the entry starts there (`true`) or does not repeat before it. -/
  plan : List (Fin 16 × W64 × Bool) := []
  /-- Ports at which a one-shot BLANK entry has fired, and whether it took effect at one of them. -/
  done : W16 := 0
  took : Bool := false
  /-- The frame of a RASTER or LINE trigger. -/
  frame : W32 := 0
  /-- A repeating entry that has fired ahead of its row, with another entry of the same tick (R306). -/
  ahead : Bool := false
  /-- Under the device's own entries: the operation it serves. -/
  owner : W16 := 0xFFFF
  deriving DecidableEq, Repr

structure HalSt where
  fsyncCfg : W32 := 0x00FA_0000
  fsyncOfs : W32 := 0
  dom : W32 := 0
  calCfg : W32 := 0x0A00_0064
  late : W8 := 0
  unblanked : W8 := 0
  /-- Sorted by index (R301). -/
  cal : List CalEntry := []
  /-- A pulse on FSYNC_OUT, and the DT at which it rose (R294). -/
  fsyncHigh : Bool := false
  fsyncAt : W64 := 0
  /-- TRIG_OUT firings at a camera port whose command was not sent (R303). -/
  unsent : Nat := 0
  deriving DecidableEq, Repr

/-! ### Pins -/

structure Pins where
  porstN : Bool := false
  faultN : Bool := false
  fsyncOut : Bool := false
  sbIrqN : Bool := true
  peWakeN : Bool := true
  deriving DecidableEq, Repr

structure SysSt where
  mode : Mode := .off
  /-- SAFE was entered from HOLD, or at the end of a boot whose image failed (R31). -/
  safeToHold : Bool := false
  safeByTrip : Bool := false
  safeByFence : Bool := false
  /-- The port states held at the last entry to SAFE, HOLD, MAINTAIN or DEEP (R34). -/
  portsAt : Vector PortSt 16 := Vector.replicate 16 .down
  /-- The manager: up, restarts since PORST_N, and whether its watchdog left it stuck. -/
  mgrUp : Bool := false
  restarts : W32 := 0
  /-- A first RUN since PORST_N, privileged reset or wake (R109). -/
  firstRun : Bool := true
  /-- Gating overrides that a change of device mode began (R470). -/
  gateOvr : Nat := 0
  shrCfg : W32 := 0x6414_0A02
  hlSpare : W32 := 7
  /-- DT and source of the last wake that found the device in RUN or REEF, and that it ended REEF (R33). -/
  wakeAt : Option (W64 × WakeSrc × Bool) := none
  /-- DT at which automatic sparing last took HL16, and the lane and port that it served (R269). -/
  sparedAt : Option (W64 × Fin 20 × Fin 16) := none
  deriving DecidableEq, Repr

/-! ### Ports -/

/-- The set-up registers of a port. -/
structure PortCfg where
  linkCfg : W32 := 0x0000_1470
  dsCfg : W32 := 0x001E_2300
  rxCfg : W32 := 0x6556_2914
  shrPort : W32 := 0x64
  rtxCfg : W32 := 0x100C_0001
  freshCfg : W32 := 0x0000_0121
  stdCfg : W32 := 0x29F0_0000
  c45Addr : W32 := 0x0001_0000
  rasterCfg : W32 := 0xC002_1000
  rasterDelay : W32 := 0
  pwrCfg : W32 := 0x00C8_01E1
  diagCfg : W32 := 0x5E05_3C36
  planCfg : W32 := 0xE00E_4004
  deriving DecidableEq, Repr

/-- Link state, attempts and the exchanges of bring-up (03). -/
structure LinkSt where
  st : PortSt := .down
  /-- Gating overrides that the port's leaving DOWN began (R470), and that its receive clock has qualified since it entered UP (R461). -/
  ovr : Nat := 0
  clkOk : Bool := false
  /-- DT of the last REEF_EXIT action (R303). -/
  exitTick : Option W64 := none
  /-- DT of the last wake that found the port UP, and of the last fence (R37). -/
  wakeTick : Option W64 := none
  fenceTick : Option W64 := none
  /-- DT of the last entry to Reef from UP (R37). -/
  reefTick : Option W64 := none
  /-- The line mode in which the link partner was left asleep in REEF2; `none` when it is awake (R135, R230). -/
  asleep : LineMode := .none
  /-- PT_LINK_CFG and PT_STD_CFG as the present attempt took them (R137, R233). -/
  cfgNow : W32 := 0x0000_1470
  stdNow : W32 := 0x29F0_0000
  phase : BitVec 4 := 0
  fast : Bool := false
  mode : LineMode := .none
  polInv : Bool := false
  lowMargin : Bool := false
  partnerValid : Bool := false
  partner : W32 := 0
  lastFail : BitVec 4 := 0
  fails : BitVec 4 := 0
  near : W8 := 0
  marginCur : W16 := 0x8000
  marginAtUp : W16 := 0x8000
  attempt : W8 := 0
  /-- F of R90, and that a back-off runs. -/
  f : Nat := 0
  backoff : Bool := false
  /-- A PORT_UP has been accepted since the last PORT_DOWN (R90). -/
  wanted : Bool := false
  attemptTimer : Bool := false
  steps : Nat := 0
  dual : Bool := false
  /-- TIMING_HERE of the last service codeword (R61, R616). -/
  timingHere : Bool := false
  /-- An entry to REEF2 was refused, or got no answer: the port asks again after PT_IDLE_T (R133, R135, R228). -/
  reefRetry : Bool := false
  /-- DT at entry to the present phase (R91). -/
  phaseAt : W64 := 0
  /-- The last line mode that sets the lane's coding (R238). -/
  laneMode : LineMode := .none
  deriving DecidableEq, Repr

/-- The training exchange in progress (R94–R131). -/
structure TrainSt where
  beacon : BitVec 11 := 0
  stdBeacons : Option Nat := none
  answers : Nat := 0
  ulocks : Nat := 0
  rxInv : Bool := false
  badFrames : Nat := 0
  useq : Seq := 0
  start : Option Seq := none
  switch : Option Seq := none
  /-- START_ECHO, where the link partner started later than START (R108). -/
  echoStart : Option Seq := none
  echoed : Bool := false
  acks : Nat := 0
  pcSet : BitVec 4 := 0
  fecLock : Bool := false
  goodRun : Nat := 0
  badRun : Nat := 0
  locked : Bool := false
  /-- A margin window has ended in phase 6. -/
  measured : Bool := false
  svcRun : Nat := 0
  armedRun : Nat := 0
  /-- Clause 98 or PMA training runs; DROP_STD control blocks left. -/
  anRun : Bool := false
  pmaRun : Bool := false
  dropStd : Nat := 0
  toneOn : Bool := false
  abbrev_ : Bool := false
  /-- PMA training after a link was there, not in an attempt (R221). -/
  again : Bool := false
  deriving DecidableEq, Repr

/-- One near-end or far-end filter (R158–R164): its state, the DT since which it is in it, the weight with which it entered a
ramp, in units of 2^-24, the lag, once training has placed it, the coefficients and their anchor, stored values; `was` is the state it
came from. -/
structure Filt where
  st : BitVec 3 := 0
  was : BitVec 3 := 0
  tag : BitVec 4 := 0
  since : W64 := 0
  w : Nat := 0
  lag : Option Int := none
  c : List Int := []
  a : List Int := []
  deriving DecidableEq, Repr

/-- What a MODE_SWITCH leaves to undo, should an L0 trigger fall in its tick (R126): the tick, the mode before it, the run of
uncorrectable codewords then, that it was counted UNBLANKED, and the filters of the slice. -/
structure SwitchRec where
  tick : W64
  mode : LineMode
  bad : Nat
  counted : Bool := false
  ne : Vector Filt 16
  fe : Vector Filt 16
  deriving DecidableEq, Repr

/-- The precoder, the seeds and the operational stream positions (R56, R57, R78). -/
structure LineSt where
  seedUs : BitVec 58 := 0
  seedDs : BitVec 58 := 0
  nextUs : BitVec 58 := 0
  /-- The upstream scrambler at slot 3 of the present superframe. -/
  svcScr : BitVec 58 := 0
  /-- The downstream seed in use since the last switch, and the one before, with which a draining link goes on (R56, R198). -/
  rxSeed : BitVec 58 := 0
  oldSeed : BitVec 58 := 0
  ntap : BitVec 5 := 0
  taps : List W16 := []
  turn : W16 := 0
  path : BitVec 24 := 0
  /-- A GLK_REEF accepted: level and u. -/
  reefAt : Option (BitVec 2 × Seq) := none
  reefCancel : Bool := false
  /-- The withdrawal is that of an aborted entry to DEEP: a port in REEF1 stays there (R492). -/
  reefStay : Bool := false
  /-- A planned downshift: target, u, attempts made, codewords that carried the new set (R129). -/
  dsTarget : Option LineMode := none
  dsSeedUs : BitVec 58 := 0
  dsSeedDs : BitVec 58 := 0
  dsNtap : BitVec 5 := 0
  dsTaps : List W16 := []
  dsPcSet : BitVec 4 := 0
  /-- The equalisers and the echo canceller derived for the target (R129 step 1, R131). -/
  dsCoefs : Coefs := ⟨[], [], []⟩
  dsSent : Nat := 0
  dsTries : Nat := 0
  dsUseq : Seq := 0
  /-- The DT at which the blanking window of a switch under way closes (R132). -/
  dsEnd : Option W64 := none
  dsBlocked : Bool := false
  /-- The last MODE_SWITCH that fired (R126). -/
  switched : Option SwitchRec := none
  refreshBad : Nat := 0
  /-- The first symbol of the present upstream superframe left then (R46), and its service codeword without the request
  fields, which slot 3 adds (R73). -/
  stampUs : Stamp := {}
  svc : Option (BitVec 3250) := none
  deriving DecidableEq, Repr

/-- What the stages of R142 hold between two clocks of 750 MHz; every history stands newest first. -/
structure RxChain where
  /-- Per clock: the port's own transmitted symbols, and the echo-free samples, in units of 2^-15 (stages 1 and 2). -/
  own : List (List Int) := []
  fed : List (List Int) := []
  /-- The decisions of the two decision stages (stages 4 and 7). -/
  dec1 : List Int := []
  dec2 : List Int := []
  /-- The alignment delay of stage 5, per clock, in units of 2^-39. -/
  delay : List (List Int) := []
  /-- Per source, per clock: the symbols of its two streams as they came over the bus. -/
  us : Vector (List (List Int)) 16 := Vector.replicate 16 []
  ds : Vector (List (List Int)) 16 := Vector.replicate 16 []
  /-- Samples processed. -/
  count : Nat := 0
  deriving DecidableEq, Repr

/-- The receiver (R142–R152). -/
structure RxSt where
  chain : RxChain := {}
  live : Coefs := ⟨[], [], []⟩
  shadow : Coefs := ⟨[], [], []⟩
  anchor : Coefs := ⟨[], [], []⟩
  anchorMargin : W16 := 0x8000
  /-- DT of the last anchor renewal (R149, R178). -/
  renewAt : W64 := 0
  rich : Activity := .quiet
  /-- The activity state when the last window ended, and its changes since, newest first, with their DT (R148). -/
  richWas : Activity := .quiet
  turns : List (W64 × Activity) := []
  /-- The activity state was LOW or QUIET at some time in the present margin window (R149, R151). -/
  winPoor : Bool := false
  held : Bool := false
  copyMargin : Int := 0
  /-- The margins of the last 16 windows, 2^24 symbols, newest first (R127). -/
  margins : List Int := []
  slow : Bool := false
  reverts : W8 := 0
  fenceHits : W8 := 0
  forced : W8 := 0
  /-- DT of the last reverts, newest first (R152). -/
  revertAt : List W64 := []
  deriving DecidableEq, Repr

/-- What a running leave defers (R166). -/
inductive LeaveFor where
  | portDown | portIsolate | shrPort (v : W32)
  deriving DecidableEq, Repr

/-- A running leave: the DT at which it began, and the largest T_LEAVE since, in DT ticks (R166). -/
structure Leave where
  what : LeaveFor
  /-- The PORT_CONFIG that waits for it. -/
  op : Option W16 := none
  since : W64
  len : Nat
  deriving DecidableEq, Repr

/-- The Shroud slice of a port (R154–R183), and what the port publishes (R155). -/
structure ShrSt where
  gain : W16 := 0x8000
  ne : Vector Filt 16 := Vector.replicate 16 {}
  fe : Vector Filt 16 := Vector.replicate 16 {}
  leaves : List Leave := []
  /-- The symbols of the last clock that the port has published: its own, and its first-stage decisions (R143, R155). -/
  pubUs : List Int := []
  pubDs : List Int := []
  /-- The symbols published in the last 2^16 clocks, newest first, by the number of the clock: three to a tick of DT (R155). -/
  pub : List (Int × List Int × List Int) := []
  syncExcl : Bool := false
  /-- Sources that a Shroud bus test found bad: their filters stay OUT (R561). -/
  barred : W16 := 0
  deriving DecidableEq, Repr

/-- A raster mark with the identity of the block that its OFFSET names (R66, R202). -/
structure Mark where
  type : BitVec 3
  stream : Fin 4
  frame : W32
  line : W16
  seq : Seq
  slot : BitVec 4
  offset : Nat := 0
  deriving DecidableEq, Repr

/-- One entry of the reorder buffer (R185): `data` is `none` while it is missing; `raw` is what came in that slot itself, and `via` the
slot in which the data came as a retransmission (R64). -/
structure REntry where
  seq : Seq
  slot : BitVec 4
  data : Option (BitVec 3250)
  raw : Option (BitVec 3250) := none
  via : Option (Seq × BitVec 4) := none
  requested : Bool := false
  deriving DecidableEq, Repr

/-- One resolved slot map (R64): for each slot whether it is a retransmission slot, and the identity it carries. -/
structure MapEntry where
  seq : Seq
  slots : List (Bool × BitVec 8 × BitVec 4)
  deriving DecidableEq, Repr

structure RtxSt where
  wAct : Nat := 0
  /-- RESERVE in force (R199). -/
  resAct : Nat := 12
  reduced : Bool := false
  peak : BitVec 12 := 0
  entries : List REntry := []
  maps : List MapEntry := []
  newest : Option Seq := none
  /-- The loop timing of R184: a superframe's SEQ and the instant at which its first symbol is due, in 2^-16 tick; that of a
  draining link. -/
  dsAnchor : Option (Seq × Int) := none
  oldAnchor : Option (Seq × Int) := none
  /-- A payload codeword has been played out since entry to UP (R115). -/
  played : Bool := false
  /-- Payload codewords with a non-idle block in the present window of 64 superframes (R193). -/
  busy : Nat := 0
  reqMap : BitVec 1024 := 0
  reqBase : Seq := 0
  counters : Vector W64 16 := Vector.replicate 16 0
  draining : Bool := false
  /-- The loss episode: its first identity, count and stamp (R196). -/
  episode : Option (Seq × BitVec 4 × Nat × Stamp × RPos) := none
  /-- The reserve check: whether this window and the last held a retransmission slot, and the port was UP throughout. -/
  winRtx : Bool := false
  prevRtx : Bool := false
  winUp : Bool := false
  /-- A burst under way: its first codeword's time, codewords lost, delivered missing, good codewords since the last loss,
  the last lost codeword's time (R590, R592); and the end of the burst before. -/
  burst : Option (W64 × Nat × Nat × Nat × W64) := none
  burstEnd : Option W64 := none
  deriving DecidableEq, Repr

structure FreshSt where
  armed : BitVec 4 := 0
  stale : BitVec 4 := 0
  skips : W8 := 0
  repeats : W8 := 0
  near : W8 := 0
  frames : Vector W32 4 := Vector.replicate 4 0
  /-- DT at which the last accepted mark of a stream was timed. -/
  lastAt : Vector W64 4 := Vector.replicate 4 0
  /-- Marks received whose block has not been played out. -/
  waiting : List Mark := []
  deriving DecidableEq, Repr

/-- Standard modes (06). -/
structure StdSt where
  mode : LineMode := .none
  master : Bool := false
  eee : Bool := false
  oam : Bool := false
  lpiRx : Bool := false
  lpiTx : Bool := false
  tc10Sleep : Bool := false
  wakeSrc : BitVec 2 := 0
  linkFails : W8 := 0
  /-- The port's own TC10 sleep request is under way (R228). -/
  handshake : Bool := false
  advert : W8 := 0
  c45 : List (BitVec 21 × W16) := []
  c45Err : Bool := false
  deriving DecidableEq, Repr

structure UpBuf where
  /-- Oldest first, at most 32,768 blocks (R252). -/
  blocks : List (BitVec 65) := []
  xoff : Bool := false
  drop : BitVec 15 := 0
  /-- Received count, modulo 2^16, and the LIMIT last sent (R247, R252). -/
  count : W16 := 0
  limit : Option W16 := none
  /-- PAUSE frames that wait for a run of idle blocks, oldest first (R253). -/
  pauses : List W16 := []
  /-- What is left of a PAUSE that has begun, and whether the last block before it was idle. -/
  pauseRest : List (BitVec 65) := []
  lastIdle : Bool := false
  deriving DecidableEq, Repr

inductive PRasterSt where
  | none | steering | locked
  deriving DecidableEq, Repr

/-- A port raster (R297). -/
structure PRaster where
  st : PRasterSt := .none
  offset : BitVec 20 := 0
  sets : W8 := 0
  k : W32 := 0
  deltas : List Int := []
  learned : Bool := false
  good : Nat := 0
  bad : Nat := 0
  tries : Nat := 0
  lastCmd : Option W32 := none
  lpSent : W32 := 0
  /-- M and FRAME of the last accepted start-of-frame mark of each stream (R309), and of the last end-of-frame mark. -/
  sof : Vector (Stamp × W32) 4 := Vector.replicate 4 ({}, 0)
  eof : Option (W64 × W32) := none
  /-- The last end-of-frame mark and the start-of-frame mark that followed it (R299). -/
  win : Option (W64 × W64) := none
  /-- The last opening of received blanking, in 2^-16 tick (R305). -/
  opened : Int := -1
  /-- The last two intervals in which an identity was missing or a retransmission slot came, less than 2 ms apart within each
  (R296); the latest first. -/
  dirty : List (W64 × W64) := []
  retry : Bool := false
  /-- Step 1 of R297 waits for the master raster. -/
  startDue : Bool := false
  deriving DecidableEq, Repr

/-- One OAM exchange (R81–R83). -/
structure OamX where
  tag : W8
  type : W8
  len : W8
  payload : BitVec 352
  tries : Nat := 0
  sent : Nat := 0
  /-- The handle of an OAM_SEND, or `none` for the hub's own GLK write. -/
  op : Option W16
  deriving DecidableEq, Repr

/-- An upstream command of R76: code 1 SET_FRAME, 2 SHIFT, 3 SET_LINE, 8 trigger; its fields, and the copies still to
send. -/
structure UpCmd where
  code : BitVec 4
  id : W8
  data : BitVec 112
  left : Nat
  deriving DecidableEq, Repr

structure OamSt where
  live : List OamX := []
  lastTag : W8 := 0
  /-- TAG of the last VENDOR message sent (R83). -/
  sentVendor : Option W8 := none
  /-- TAG of the last VENDOR message received, and messages of a reserved TYPE (R83). -/
  lastVendor : Option W8 := none
  bad : Nat := 0
  cmds : List UpCmd := []
  lastId : W8 := 0
  reqAck : Option Seq := none
  health : W32 := 0
  healthSeen : Bool := false
  rtxStat : W64 := 0
  deriving DecidableEq, Repr

/-- A port's Attic ring (R330, R358). -/
structure Attic where
  on : Bool := false
  depth : Nat := 0
  period : W16 := 0
  addr : W64 := 0
  idx : Nat := 0
  phase : Bool := true
  seq : W16 := 0
  skipped : W32 := 0
  dmaHalt : Bool := false
  lastUncorr : W64 := 0
  lastMissing : W64 := 0
  deriving DecidableEq, Repr

/-- What a Cellar snapshot holds (R121). -/
structure Snapshot where
  valid : Bool
  mode : Nat
  polInv : Bool
  master : Bool
  pcSet : BitVec 4
  ntap : BitVec 5
  turn : W16
  margin : W16
  path : BitVec 24
  ffe : List Int
  dfe : List Int
  taps : List W16
  echo : List Int
  deriving DecidableEq, Repr

/-- The port controller and its queues (R25, R405). -/
structure PcSt where
  up : Bool := true
  toPc : Nat := 0
  toMgr : Nat := 0
  /-- Completions that wait in the controller's data SRAM behind a full queue (R27). -/
  held : Nat := 0
  epochToPc : BitVec 4 := 0
  epochToMgr : BitVec 4 := 0
  flushes : W8 := 0
  overruns : W8 := 0
  deriving DecidableEq, Repr

/-- An hourly point of the planner (R588): its time, mean margin in 0.1 dB and mean temperature in °C. -/
structure HourPt where
  time : W64
  mean : Int
  temp : Int
  deriving DecidableEq, Repr

/-- A burst that the planner knows (R590): its end, D in ticks, and the spacing from the burst before with that one's D. -/
structure PlanBurst where
  time : W64
  len : Nat
  gap : Option (Nat × Nat) := none
  deriving DecidableEq, Repr

/-- What the margin planner keeps in the data SRAM (R588–R590). -/
structure PlanSt where
  /-- The points of the last FIT_DAYS, newest first. -/
  points : List HourPt := []
  /-- The present hour: the margins of its HIGH windows, their number and the lowest, the temperatures, and the time in UP. -/
  sum : Int := 0
  count : Nat := 0
  low : Int := 0
  tempSum : Int := 0
  tempCount : Nat := 0
  upTicks : Nat := 0
  upSince : Option W64 := none
  /-- When TTC was computed, from which it counts down. -/
  ttcAt : W64 := 0
  /-- The bursts of the last 7 days, newest first. -/
  bursts : List PlanBurst := []
  /-- The last WINDOW_PROPOSAL. -/
  proposedAt : Option W64 := none
  deriving DecidableEq, Repr

/-- Diagnostics, calibration and the planner of a port (16). -/
structure DiagSt where
  il : BitVec 12 := 0xFFF
  shield : Bool := false
  shieldRef : Option Int := none
  verdict : BitVec 2 := 0
  peaksChg : W8 := 0
  reflect : List W16 := []
  baseline : Option (List W16) := none
  trims : List W8 := List.replicate 52 0
  /-- The codes a run has measured for its trims; empty until it has measured (R582). -/
  calTargets : List W8 := []
  calRunning : Bool := false
  calCause : W8 := 0
  /-- The run's steps applied, those counted UNBLANKED, the codes it began with, and its last step (R582, R591). -/
  calSteps : Nat := 0
  calUnblanked : Nat := 0
  calFrom : List W8 := []
  calLast : Stamp := {}
  calLastPos : RPos := {}
  /-- The last step of the present run (R582). -/
  calStepAt : Stamp := {}
  calStepPos : RPos := {}
  /-- The last TDR result (R572, R593), and that its listening found receive energy (R571). -/
  tdr : List TdrFinding := []
  tdrAt : Stamp := {}
  tempLast : W8 := 0
  tempNow : W8 := 0
  calCount : W32 := 0
  fcastValid : Bool := false
  fcastFalling : Bool := false
  ttc : Seq := 0xFF_FFFF
  txOfs : W8 := 0
  txTarget : W8 := 0
  upLoss : W16 := 0
  /-- Consecutive hours with at least UP_LIM upstream losses, and without one (R590). -/
  lossHours : Nat := 0
  quietHours : Nat := 0
  /-- Upstream losses in the present hour. -/
  lossNow : Nat := 0
  /-- The noise powers of the last 10 min, newest first, in 0.1 dB over the detector floor, and those since the baseline was taken
  until there are 10 min of them (R577). -/
  shieldWin : List Int := []
  shieldFirst : Option (List Int) := none
  plan : PlanSt := {}
  deriving DecidableEq, Repr

/-- Self-test of a port (15). -/
structure BistPort where
  passRun : Bool := false
  slice : BitVec 7 := 0
  logicFail : Bool := false
  failMem : BitVec 3 := 0
  failArray : BitVec 4 := 0
  passes : W8 := 0
  fails : W8 := 0
  op : Option W16 := none
  logicRun : Bool := false
  startDone : Bool := false
  /-- Slices done of the device's own pass, which waits for a BIST_RUN to end (R559). -/
  waiting : Option (BitVec 7) := none
  deriving DecidableEq, Repr

structure Port where
  cfg : PortCfg := {}
  link : LinkSt := {}
  train : TrainSt := {}
  line : LineSt := {}
  rx : RxSt := {}
  shr : ShrSt := {}
  rtx : RtxSt := {}
  fresh : FreshSt := {}
  std : StdSt := {}
  up : UpBuf := {}
  raster : PRaster := {}
  oam : OamSt := {}
  attic : Attic := {}
  pc : PcSt := {}
  diag : DiagSt := {}
  bist : BistPort := {}
  /-- The bytes of the Cellar snapshot (R121). -/
  snap : Option (List W8) := none
  /-- Domain Pn powered and out of reset. -/
  on : Bool := false
  /-- The lane that carries the port. -/
  lane : Fin 20
  deriving DecidableEq, Repr

/-! ### Lanes (07) -/

inductive RxLane where
  | off | squelch | adapt | align | locked
  deriving DecidableEq, Repr

/-- What an 8b/10b transmitter remembers between octets: the disparity, and the carrier extensions that still follow the end of a
frame (R251). -/
structure PcsTx where
  rd : Bool := false
  extend : Nat := 0
  deriving DecidableEq, Repr

structure LaneSt where
  cfg : W32 := 0
  txeq : W32 := 0x0000_4C08
  rxCfg : W32 := 0x2840_0000
  /-- The port carried, or `none`. -/
  port : Option (Fin 16) := none
  /-- A spare that the port left with a live fault serves no other port (R268). -/
  reserved : Option (Fin 16) := none
  rx : RxLane := .off
  /-- The clock of a party-wall lane has qualified since the receiver last locked (R461). -/
  clkOk : Bool := false
  rxInv : Bool := false
  revd : Bool := false
  eye : W8 := 0
  heye : BitVec 6 := 0
  ctle : BitVec 4 := 0
  mkBad : W8 := 0
  rpDrop : W8 := 0
  blkLost : W16 := 0
  prbsErrs : W32 := 0
  /-- The PRBS31 generator, and the checker's register with the received bits that have filled it (R262). -/
  prbsTx : BitVec 31 := 0x7FFF_FFFF
  prbsRx : BitVec 31 := 0
  prbsFill : Nat := 0
  /-- An 8b/10b transmitter, and the running disparity of the receiver (R251). -/
  txPcs : PcsTx := {}
  rxRd : Bool := false
  /-- Blocks were discarded for stuff bits (R249), and a fault waits for a LANE_SPARE to complete (R269). -/
  overrun : Bool := false
  waiting : Bool := false
  good : Nat := 0
  bad : Nat := 0
  /-- PORT and LANE of the last correct host marker (R248, R258). -/
  hostPort : BitVec 5 := 0x1F
  hostLane : Option (BitVec 5) := none
  txScr : BitVec 58 := 0x3FF_FFFF_FFFF_FFFF
  /-- The transmitter's run counter (R242), its blocks since the last marker (R240), and how many bit times it is ahead (R249). -/
  txLast : Bool := false
  txRun : Nat := 0
  sent : Nat := 2048
  slack : Int := 0
  /-- The receiver's run counter, and a code violation in the present period (R244). -/
  rxLast : Bool := false
  rxRun : Nat := 0
  rxBad : Bool := false
  /-- The taps of the receiver's DFE (R256), as the monitor gives them. -/
  dfe : List Int := []
  rxScr : BitVec 58 := 0x3FF_FFFF_FFFF_FFFF
  /-- Marks queued for the lane's markers, at most 4 (R246), with blocks sent since. -/
  marks : List (Mark × Nat) := []
  coding : BitVec 3 := 0
  div : BitVec 2 := 0
  /-- A LANE_SPARE brings the lane up for this port, since a DT. -/
  target : Option W16 := none
  targetAt : W64 := 0
  deriving DecidableEq, Repr

/-! ### Memories (15), ageing and the pair (16, 17) -/

/-- One protected memory of R541. -/
structure MemSt where
  loss : Bool := false
  hard : W8 := 0
  uncorr : W8 := 0
  lapLate : BitVec 2 := 0
  trkOvf : BitVec 2 := 0
  corr : W32 := 0
  lap : W32 := 0
  /-- Correction trackers: address, count, watch (R547). -/
  track : List (Nat × Nat × Bool) := []
  poisoned : List Nat := []
  /-- Substitutions under way: array and row (R548, R553). -/
  subst : List (Nat × Nat) := []
  repaired : List (Nat × Nat) := []
  /-- Addresses of hard faults whose row has no spare, and which stay in WATCH (R548). -/
  lost : List Nat := []
  deriving DecidableEq, Repr

structure BistSt where
  cfg : W32 := 0x003C_000C
  memCfg : W32 := 0x000A_0003
  privRun : BitVec 4 := 0
  privFail : BitVec 4 := 0
  privLeft : BitVec 4 := 0
  fusePend : List (Nat × Nat × Nat) := []
  /-- Repairs that this device's OTP has taken since it left the factory (R555). -/
  fused : List (Nat × Nat × Nat) := []
  /-- DT of the last start of a privileged test (R561). -/
  privAt : Option W64 := none
  privOp : Option W16 := none
  reload : List (Nat × Nat) := []
  deriving DecidableEq, Repr

structure AgeSt where
  cfg : W32 := 0x003C_0801
  calCfg : W32 := 0x42
  delta : List Int := List.replicate 24 0
  ceiling : Bool := false
  /-- Consecutive measurements that planned a lower VSET (R587). -/
  lower : Nat := 0
  vrefBad : Bool := false
  rextBad : Bool := false
  vrefDev : W8 := 0
  rextDev : W8 := 0
  deriving DecidableEq, Repr

inductive PairRole where
  | off | join | lead | follow | confirm | hold
  deriving DecidableEq, Repr

structure PairSt where
  cfg : W32 := 0
  st : PairRole := .off
  pepoch : BitVec 5 := 0
  /-- The last PEPOCH heard (R617), and that of a LEAD heard during JOIN (R608). -/
  heard : Option (BitVec 5) := none
  joinLead : Option (BitVec 5) := none
  /-- The JOIN follows a wake from DEEP. -/
  joinWake : Bool := false
  peerOk : Bool := false
  peerMode : BitVec 3 := 0
  peerDevid : BitVec 9 := 0
  takeovers : W8 := 0
  peerUp : W16 := 0
  delay : W16 := 0
  resid : W16 := 0
  hbBad : W16 := 0
  hbMiss : W16 := 0
  /-- HBSEQ of the next heartbeat; HBSEQ of the last correct one received and the DT of its arrival; that one has come since the
  last one sent. -/
  seq : BitVec 12 := 0
  echoSeq : BitVec 12 := 0
  echoAt : W64 := 0
  since : Bool := false
  /-- The last 16 heartbeats sent: HBSEQ and the DT of the first bit, in 2^-16 tick, newest first (R613). -/
  sentAt : List (BitVec 12 × Int) := []
  /-- Consecutive heartbeats within the limit of R613. -/
  good : Nat := 0
  deriving DecidableEq, Repr

/-! ### The block -/

/-- A port at reset; port n is on lane HLn (R17, R237). -/
def Port.reset (n : Fin 16) : Port := { lane := ⟨n.val, by omega⟩ }

def LaneSt.reset (m : Fin 20) : LaneSt :=
  { port := if h : m.val < 16 then some ⟨m.val, h⟩ else none }

structure Dev where
  sys : SysSt := {}
  pins : Pins := {}
  clk : ClkSt := {}
  pwr : PwrSt := {}
  avs : AvsSt := {}
  dt : DtSt := {}
  raster : RasterReg := {}
  hal : HalSt := {}
  flt : FltSt := {}
  host : HostSt := {}
  mbxS : Mbx := {}
  mbxN : Mbx := {}
  acc : AccSt := {}
  cfg : CfgSt := {}
  boot : BootSt := {}
  ports : Vector Port 16 := Vector.ofFn Port.reset
  lanes : Vector LaneSt 20 := Vector.ofFn LaneSt.reset
  mem : Vector MemSt 132 := Vector.replicate 132 {}
  bist : BistSt := {}
  age : AgeSt := {}
  pair : PairSt := {}
  /-- What has left the block, newest first. -/
  out : List Output := []
  /-- The model's own counter of the values the rules leave open. -/
  free : Nat := 0
  deriving DecidableEq, Repr

structure State where
  dev : Dev := {}
  /-- The commands that wait, first in, first out. -/
  pending : List Instr := []
  deriving DecidableEq, Repr

/-- The block with its supplies valid and PORST_N low (R429): device mode OFF, every register at its Reset column. -/
def State.reset : State := {}

end Sys2Proof.Machine
end

