-- ==== Sys2Proof/Machine/Bits.lean ====
section
/-! DEFINITION. Fields of words, saturating counters, little-endian bytes and the codes the rules give to modes, states,
masters and sources. -/
namespace Sys2Proof.Machine

/-- Bits [hi:lo] of a register, as a number (R5). -/
def fld (w : W32) (hi lo : Nat) : Nat := (w.toNat >>> lo) % 2 ^ (hi + 1 - lo)

/-- Bits [hi:lo] of a 64-bit field. -/
def fldW (w : W64) (hi lo : Nat) : Nat := (w.toNat >>> lo) % 2 ^ (hi + 1 - lo)

/-- A register with bits [hi:lo] replaced. -/
def setFld (w : W32) (hi lo : Nat) (v : Nat) : W32 :=
  let mask : W32 := BitVec.ofNat 32 ((2 ^ (hi + 1 - lo) - 1) <<< lo)
  (w &&& ~~~mask) ||| (BitVec.ofNat 32 (v <<< lo) &&& mask)

/-- Bit i of a word of any width. -/
def bit {w : Nat} (x : BitVec w) (i : Nat) : Bool := x.getLsbD i

def setBit {w : Nat} (x : BitVec w) (i : Nat) (b : Bool) : BitVec w :=
  if b then x ||| BitVec.ofNat w (1 <<< i) else x &&& ~~~(BitVec.ofNat w (1 <<< i))

/-- Each entry of a register file changed by one function. -/
def vmap {α β : Type} {n : Nat} (v : Vector α n) (f : α → β) : Vector β n := Vector.ofFn fun i => f v[i.val]

/-- Whether a test holds of an entry of a register file. -/
def vany {α : Type} {n : Nat} (v : Vector α n) (f : α → Bool) : Bool := (List.finRange n).any fun i => f v[i.val]

/-- A saturating counter. -/
def satAdd {w : Nat} (x : BitVec w) (k : Nat) : BitVec w :=
  if x.toNat + k < 2 ^ w then x + BitVec.ofNat w k else BitVec.ofNat w (2 ^ w - 1)

def satInc {w : Nat} (x : BitVec w) : BitVec w := satAdd x 1

def b2n (b : Bool) : Nat := if b then 1 else 0

/-- A field placed at bit lo of a 32-bit word under construction. -/
def at_ (lo v : Nat) : W32 := BitVec.ofNat 32 (v <<< lo)

def atB (lo : Nat) (b : Bool) : W32 := at_ lo (b2n b)

/-- The k bytes of a number, least significant first (R6). -/
def leBytes : Nat → Nat → List W8
  | 0, _ => []
  | k + 1, v => BitVec.ofNat 8 v :: leBytes k (v / 256)

def ofLe : List W8 → Nat
  | [] => 0
  | b :: bs => b.toNat + 256 * ofLe bs

/-- Bytes with zeros after them, or cut, to a length of k. -/
def padTo (k : Nat) (l : List W8) : List W8 := (l ++ List.replicate k 0).take k

/-- A signed value in 16 bits, saturating. -/
def s16 (i : Int) : W16 :=
  if i < -32768 then 0x8000 else if i > 32767 then 0x7FFF else BitVec.ofInt 16 i

/-- Bits at an offset of a line structure of w bits, in which offset 0 is the first bit on the wire (R7). -/
def lineFld {w : Nat} (x : BitVec w) (off width : Nat) : Nat :=
  (x.toNat >>> (w - off - width)) % 2 ^ width

/-- A line structure built from its fields, first on the wire first: pairs of width and value. -/
def lineBits : List (Nat × Nat) → Nat
  | l => l.foldl (fun acc f => acc * 2 ^ f.1 + f.2 % 2 ^ f.1) 0

end Sys2Proof.Machine

namespace Sys2Proof

/-! ### Codes -/

def Mode.code : Mode → Nat
  | .off => 0 | .boot => 1 | .hold => 2 | .run => 3 | .safe => 4 | .maintain => 5 | .reef => 6 | .deep => 7

/-- R138. -/
def PortSt.code : PortSt → Nat
  | .down => 0 | .training => 1 | .up => 2 | .reef1 => 3 | .reef2 => 4 | .isolated => 5 | .fenced => 6 | .retired => 7

/-- R93. -/
def LineMode.code : LineMode → Nat
  | .none => 0 | .gl25 => 1 | .gl12 => 2 | .gl6 => 3 | .t10g => 4 | .t5g => 5 | .t2g5 => 6 | .t1g => 7

def lineModeOf : Nat → LineMode
  | 1 => .gl25 | 2 => .gl12 | 3 => .gl6 | 4 => .t10g | 5 => .t5g | 6 => .t2g5 | 7 => .t1g | _ => .none

def LineMode.gletik : LineMode → Bool
  | .gl25 | .gl12 | .gl6 => true
  | _ => false

def LineMode.std : LineMode → Bool
  | .t10g | .t5g | .t2g5 | .t1g => true
  | _ => false

/-- The bit of a mode in a mode bitmap (R93). -/
def LineMode.inMap (m : LineMode) (map : Nat) : Bool := m.code != 0 && (map >>> (m.code - 1)) % 2 == 1

/-- R380. -/
def Master.code : Master → Nat
  | .mgr => 1 | .pf0 => 2 | .pf1 => 3 | .sb => 4

/-- The 2-bit host code: the master code minus 1, 0 for the manager (R380). -/
def Master.host (m : Master) : BitVec 2 := BitVec.ofNat 2 (m.code - 1)

def Fn.host : Fn → BitVec 2
  | .pf0 => 1
  | .pf1 => 2

def Activity.code : Activity → Nat
  | .quiet => 0 | .low => 1 | .high => 2

end Sys2Proof

namespace Sys2Proof.Machine

def RingSt.code : RingSt → Nat
  | .off => 0 | .run => 1 | .stopping => 2 | .error => 3

def RasterSt.code : RasterSt → Nat
  | .free => 0 | .acquire => 1 | .locked => 2 | .holdover => 3 | .unlocked => 4

def PRasterSt.code : PRasterSt → Nat
  | .none => 0 | .steering => 1 | .locked => 2

def RxLane.code : RxLane → Nat
  | .off => 0 | .squelch => 1 | .adapt => 2 | .align => 3 | .locked => 4

/-! ### The parts of the state -/

def Dev.port (d : Dev) (n : Fin 16) : Port := d.ports[n.val]

def Dev.setPort (d : Dev) (n : Fin 16) (p : Port) : Dev := { d with ports := d.ports.set n.val p n.isLt }

def Dev.modPort (d : Dev) (n : Fin 16) (f : Port → Port) : Dev := d.setPort n (f (d.port n))

def Dev.lane (d : Dev) (m : Fin 20) : LaneSt := d.lanes[m.val]

def Dev.setLane (d : Dev) (m : Fin 20) (l : LaneSt) : Dev := { d with lanes := d.lanes.set m.val l m.isLt }

def Dev.modLane (d : Dev) (m : Fin 20) (f : LaneSt → LaneSt) : Dev := d.setLane m (f (d.lane m))

def Dev.fn (d : Dev) : Fn → FnSt
  | .pf0 => d.host.pf0
  | .pf1 => d.host.pf1

def Dev.setFn (d : Dev) (f : Fn) (x : FnSt) : Dev :=
  match f with
  | .pf0 => { d with host := { d.host with pf0 := x } }
  | .pf1 => { d with host := { d.host with pf1 := x } }

def Dev.modFn (d : Dev) (f : Fn) (g : FnSt → FnSt) : Dev := d.setFn f (g (d.fn f))

def Dev.setMem (d : Dev) (x : Fin 132) (m : MemSt) : Dev := { d with mem := d.mem.set x.val m x.isLt }

def Dev.emit (d : Dev) (o : Output) : Dev := { d with out := o :: d.out }

def Dev.modSys (d : Dev) (f : SysSt → SysSt) : Dev := { d with sys := f d.sys }

/-- Every port in turn. -/
def allPorts : List (Fin 16) := List.finRange 16

def Dev.eachPort (d : Dev) (f : Dev → Fin 16 → Dev) : Dev := allPorts.foldl f d

/-- The ports of a mask, lowest first. -/
def maskPorts (m : W16) : List (Fin 16) := allPorts.filter fun n => bit m n.val

def portOf (b : W8) : Option (Fin 16) := if h : b.toNat < 16 then some ⟨b.toNat, h⟩ else none

/-- The LPLL drives DT: it is locked, slews, or holds over. -/
def lpllRuns (c : ClkSt) : Bool :=
  match c.lpll with
  | .locked | .slew | .holdover => true
  | _ => false

/-- What k ticks under the present rates leave of a slew; one that is used up ends it (R284). -/
def slewLeft (t : DtSt) (k : Nat) : Int :=
  let x := t.slew - (t.adj - t.trim) * 65536 * k
  if (0 ≤ t.slew ∧ x ≤ 0) ∨ (t.slew ≤ 0 ∧ 0 ≤ x) then 0 else x

/-- k cycles of the 250 MHz clock: DT and its fraction under the rate adjustment, whose smallest parts the accumulator carries on
(R280; DESIGN CHOICE, assumption 178). Under a negative adjustment a cycle without a carry leaves DT as it was, as R280 computes it,
although R281 lets no value repeat (DESIGN CHOICE, assumption 199). While DT runs from the RC oscillator its uncertainty grows by 200 ppm (R282, R286). -/
def ticks (t : DtSt) (coarseClock : Bool) (k : Nat) : DtSt :=
  let r : Int := t.adj * 65536 * k + t.rest
  let x : Int := (t.dt.toNat * 65536 + t.frac.toNat + 65536 * k : Nat) + r / 1000000000
  { t with
    dt := BitVec.ofInt 64 (x / 65536), frac := BitVec.ofInt 16 (x % 65536), rest := r % 1000000000,
    slew := slewLeft t k, adj := if t.slew != 0 && slewLeft t k == 0 then t.trim else t.adj,
    unc := if coarseClock then t.unc + 8 * k else t.unc }

/-- DT at t, if t is still ahead: a row that names an instant takes place at it (assumption 4). A slew and the uncertainty move on by
the cycles between. -/
def Dev.reach (d : Dev) (t : W64) : Dev :=
  if d.dt.running && d.dt.dt < t then
    { d with dt := { ticks d.dt (!lpllRuns d.clk) (t.toNat - d.dt.dt.toNat) with dt := t, frac := 0 } }
  else d

end Sys2Proof.Machine
end

