-- ==== Sys2Proof/Machine/Codec.lean ====
section
/-! DEFINITION. The formats on the wire: symbol maps, the Reed–Solomon code, the scrambler, the precoder, checks, and the
layouts of the Gletik blocks, the Byham marker and the heartbeat. -/
namespace Sys2Proof.Machine

/-! ### Symbols (R42, R43) -/

/-- PAM4 level of a dibit (R42). -/
def pam4 : BitVec 2 → Int
  | 0 => -3
  | 1 => -1
  | 3 => 1
  | _ => 3

/-- PAM2 level of a bit (R43). -/
def pam2 (b : Bool) : Int := if b then 3 else -3

/-- Levels of a bit string of 2·k bits, first on the wire first (R42). -/
def pam4Levels (k bits : Nat) : List Int :=
  (List.range k).map fun i => pam4 (BitVec.ofNat 2 (bits >>> (2 * (k - 1 - i))))

/-- Symbol rate ratio to the upstream clock (R45). -/
def rateRatio : LineMode → Nat
  | .gl25 => 20 | .gl12 => 10 | .gl6 => 5 | _ => 1

/-- Superframe time downstream, in units of 10 ns (R45). -/
def superframeTime : LineMode → Nat
  | .gl25 => 192 | .gl12 => 384 | .gl6 => 768 | _ => 960

/-- PATH = (round trip - T_CAM) / 2, in units of 2^-8 tick (R49); half a unit is dropped, and a negative difference gives 0 (DESIGN CHOICE,
assumption 197). -/
def pathOf (roundTrip turn : Nat) : BitVec 24 := BitVec.ofNat 24 ((roundTrip - turn) / 2)

/-! ### RS(360,325) over GF(2^10) (R50) -/

/-- Multiplication by α, with p(x) = x^10 + x^3 + 1. -/
def gfAlpha (a : Nat) : Nat := if 512 ≤ a then (2 * a) ^^^ 0x409 else 2 * a

def gfMulAux : Nat → Nat → Nat → Nat
  | 0, _, _ => 0
  | k + 1, a, b => (if b % 2 = 1 then a else 0) ^^^ gfMulAux k (gfAlpha a) (b / 2)

def gfMul (a b : Nat) : Nat := if a = 0 ∨ b = 0 then 0 else gfMulAux 10 a b

def gfPow : Nat → Nat
  | 0 => 1
  | k + 1 => gfAlpha (gfPow k)

/-- The generator (x - α^0)…(x - α^(k-1)), lowest coefficient first, the leading one left out. -/
def rsGen : Nat → List Nat
  | 0 => []
  | k + 1 =>
    let g := rsGen k ++ [1]
    let r := gfPow k
    List.zipWith (fun lo hi => lo ^^^ gfMul r hi) (0 :: rsGen k) g

/-- One division step: the remainder's symbols, lowest first, and the next message symbol. -/
def rsStep (g rem : List Nat) (m : Nat) : List Nat :=
  let f := (rem.getLastD 0) ^^^ m
  List.zipWith (fun r c => r ^^^ gfMul f c) (0 :: rem.dropLast) g

/-- The codeword of a message, c359 first: message symbols m324…m0, then 35 parity symbols (R50, R51). -/
def rsEncode (msg : List Nat) : List Nat :=
  let g := rsGen 35
  msg ++ (msg.foldl (rsStep g) (List.replicate 35 0)).reverse

/-- The syndromes of a received word, c359 first. -/
def rsSyndromes (word : List Nat) : List Nat :=
  (List.range 35).map fun i =>
    let r := gfPow i
    word.foldl (fun s c => gfMul r s ^^^ c) 0

def rsChecks (word : List Nat) : Bool := (rsSyndromes word).all (· == 0)

/-- A received word that the decoder corrects to a codeword: at most 17 symbols differ (R50). -/
def rsCorrects (received codeword : List Nat) : Bool :=
  rsChecks codeword && decide (((List.zipWith (· ^^^ ·) received codeword).filter (· != 0)).length ≤ 17)

/-! The hub's decoder (R50): the error locator from the syndromes, its roots among the 360 positions, the error values, and
the syndrome check of the corrected word. Polynomials stand lowest coefficient first. -/

def gfInv (a : Nat) : Nat := (List.range 9).foldl (fun x i => gfMul x ((List.range (i + 1)).foldl (fun y _ => gfMul y y) a)) 1

def gfDiv (a b : Nat) : Nat := gfMul a (gfInv b)

def polyEval (p : List Nat) (x : Nat) : Nat := p.foldr (fun c s => gfMul s x ^^^ c) 0

/-- Two polynomials added. -/
def polyAdd : List Nat → List Nat → List Nat
  | [], q => q
  | p, [] => p
  | a :: p, b :: q => (a ^^^ b) :: polyAdd p q

/-- A state of the Berlekamp–Massey recursion. -/
structure BmState where
  c : List Nat
  b : List Nat
  len : Nat
  gap : Nat
  last : Nat
  deriving DecidableEq, Repr

/-- One syndrome: `past` holds it and the ones before it, newest first. -/
def bmStep (n : Nat) (past : List Nat) (s : BmState) : BmState :=
  let d := (List.zipWith gfMul (s.c.take (s.len + 1)) past).foldl (· ^^^ ·) 0
  if d = 0 then { s with gap := s.gap + 1 }
  else
    let k := gfDiv d s.last
    let c := polyAdd s.c (List.replicate s.gap 0 ++ s.b.map (gfMul k))
    if 2 * s.len ≤ n then { c := c, b := s.c, len := n + 1 - s.len, gap := 1, last := d }
    else { s with c := c, gap := s.gap + 1 }

def bmRun : Nat → List Nat → List Nat → BmState → BmState
  | _, _, [], s => s
  | n, past, x :: xs, s => bmRun (n + 1) (x :: past) xs (bmStep n (x :: past) s)

/-- The error locator of a list of syndromes, and the number of errors that it stands for. -/
def rsLocator (syn : List Nat) : List Nat × Nat :=
  let s := bmRun 0 [] syn { c := [1], b := [1], len := 0, gap := 1, last := 1 }
  (s.c.take (s.len + 1), s.len)

/-- The positions j, c_j of the codeword, whose α^-j is a root of the locator. -/
def rsPositions (loc : List Nat) : List Nat :=
  (List.range 360).filter fun j => polyEval loc (gfPow ((1023 - j) % 1023)) == 0

/-- The odd terms of a polynomial as its formal derivative has them. -/
def polyDeriv (p : List Nat) : List Nat := (List.range (p.length - 1)).map fun i => if i % 2 = 0 then p.getD (i + 1) 0 else 0

/-- The product of two polynomials, below x^35. -/
def polyMulCut (p q : List Nat) : List Nat :=
  ((List.range p.length).foldl (fun acc i => polyAdd acc (List.replicate i 0 ++ q.map (gfMul (p.getD i 0)))) []).take 35

/-- The error value at position j. -/
def rsValue (loc omega : List Nat) (j : Nat) : Nat :=
  let x := gfPow ((1023 - j) % 1023)
  gfMul (gfPow j) (gfDiv (polyEval omega x) (polyEval (polyDeriv loc) x))

/-- The decoder: the corrected word and the symbols it corrected, or none where decoding fails, where more than 17 symbols are
wrong, or where the corrected word fails the check. -/
def rsDecode (word : List Nat) : Option (Nat × List Nat) :=
  let syn := rsSyndromes word
  if syn.all (· == 0) then some (0, word)
  else
    let l := rsLocator syn
    let ps := rsPositions l.1
    if 17 < l.2 || ps.length != l.2 then none
    else
      let omega := polyMulCut syn l.1
      let fix := (List.range word.length).map fun i =>
        let j := word.length - 1 - i
        if ps.contains j then word.getD i 0 ^^^ rsValue l.1 omega j else word.getD i 0
      if rsChecks fix then some (l.2, fix) else none

/-- The symbols of 3,250 message bits, first on the wire first (R51). -/
def msgSymbols (m : BitVec 3250) : List Nat := (List.range 325).map fun i => lineFld m (10 * i) 10

/-- The line bits of a codeword, as a number, first on the wire first (R51). -/
def codewordOf (m : BitVec 3250) : Nat := (rsEncode (msgSymbols m)).foldl (fun a s => a * 1024 + s) 0

/-- The symbols of 3,600 line bits. -/
def lineSymbols (w : Nat) : List Nat := (List.range 360).map fun i => (w >>> (10 * (359 - i))) % 1024

/-- The message bits of a word of 360 symbols. -/
def symbolsMsg (word : List Nat) : BitVec 3250 := BitVec.ofNat 3250 ((word.take 325).foldl (fun a s => a * 1024 + s) 0)

/-- A control block of idle characters (R53): header bit, block type 0x1E, eight idle characters, least significant bit of
each first (PRESUMED, assumption 6). -/
def idleBlock : BitVec 65 := BitVec.ofNat 65 (lineBits [(1, 1), (8, 0x78), (56, 0)])

/-- An errored block (R195): eight error control characters. -/
def errorBlock : BitVec 65 :=
  BitVec.ofNat 65 (lineBits ([(1, 1), (8, 0x78)] ++ List.replicate 8 (7, 0x3C)))

/-! ### The scrambler (R54–R56) -/

/-- One bit of keystream and the next state. -/
def scrStep (s : BitVec 58) : Bool × BitVec 58 :=
  let k := bit s 57 != bit s 38
  (k, (s <<< 1) ||| BitVec.ofNat 58 (b2n k))

/-- The next 39 bits of keystream, first first, and the state after them: each depends on bits that the state holds now. -/
def scrBlock (s : Nat) : Nat × Nat :=
  let k := ((s >>> 19) ^^^ s) % 2 ^ 39
  (k, (s * 2 ^ 39 + k) % 2 ^ 58)

/-- k blocks of 39 bits after `acc`. -/
def scrBlocks : Nat → Nat → Nat → Nat × Nat
  | 0, acc, s => (acc, s)
  | k + 1, acc, s => scrBlocks k (acc * 2 ^ 39 + (scrBlock s).1) (scrBlock s).2

/-- The first n bits of keystream from a state, first first, as a number. -/
def keystream (n : Nat) (s : BitVec 58) : Nat :=
  let k := n / 39 + 1
  (scrBlocks k 0 s.toNat).1 >>> (39 * k - n)

/-- Line bits scrambled or descrambled: n bits, first on the wire first, with the keystream from a state. -/
def scramble (n bits : Nat) (s : BitVec 58) : Nat := bits ^^^ keystream n s

/-- A product of polynomials over GF(2) below x^58, and its residue modulo x^58 + x^19 + 1, which the keystream satisfies. -/
def polyStep (x : Nat) : Nat := if x < 2 ^ 57 then 2 * x else ((2 * x) ^^^ (2 ^ 58 + 2 ^ 19 + 1))

def polyTimes : Nat → Nat → Nat → Nat
  | 0, _, _ => 0
  | k + 1, a, b => (if b % 2 = 1 then a else 0) ^^^ polyTimes k (polyStep a) (b / 2)

/-- x^n, by the bits of n from the top. -/
def polyPower : Nat → Nat → Nat
  | 0, _ => 1
  | k + 1, n =>
    let h := polyPower k (n / 2)
    let sq := polyTimes 58 h h
    if n % 2 = 1 then polyStep sq else sq

def parity : Nat → Nat → Bool
  | 0, _ => false
  | k + 1, x => (x % 2 == 1) != parity k (x / 2)

/-- The state after n bits, n below 2^48. The oldest bit of a state is its bit 57. -/
def scrAdvance (n : Nat) (s : BitVec 58) : BitVec 58 :=
  let c := polyPower 48 n
  let rev := (List.range 58).foldl (fun a i => 2 * a + (c >>> i) % 2) 0
  let w := s.toNat * 2 ^ 58 + keystream 58 s
  BitVec.ofNat 58 ((List.range 58).foldl (fun a i => 2 * a + b2n (parity 58 (((w >>> (58 - i)) % 2 ^ 58) &&& rev))) 0)

/-- The self-synchronous scrambler of a lane, one bit at a time, first on the wire first (R241). -/
def laneScramble : List Bool → BitVec 58 → List Bool × BitVec 58
  | [], s => ([], s)
  | d :: ds, s =>
    let t := d != (bit s 38 != bit s 57)
    let r := laneScramble ds ((s <<< 1) ||| BitVec.ofNat 58 (b2n t))
    (t :: r.1, r.2)

def laneDescramble : List Bool → BitVec 58 → List Bool × BitVec 58
  | [], s => ([], s)
  | t :: ts, s =>
    let d := t != (bit s 38 != bit s 57)
    let r := laneDescramble ts ((s <<< 1) ||| BitVec.ofNat 58 (b2n t))
    (d :: r.1, r.2)

def blockBits (b : BitVec 65) : List Bool := (List.range 65).map fun i => bit b (64 - i)

def ofBits (w : Nat) (l : List Bool) : BitVec w := BitVec.ofNat w (l.foldl (fun a b => 2 * a + b2n b) 0)

/-- Stuffing (R242): the bits to send and the run so far, as the last bit and its length. -/
def stuff : List Bool → Bool → Nat → List Bool
  | [], _, _ => []
  | t :: ts, last, run =>
    let run := if t == last then run + 1 else 1
    if run == 9 then t :: (!t) :: stuff ts (!t) 1 else t :: stuff ts t run

/-- The receiver's removal of stuff bits (R244). -/
def unstuff : List Bool → Bool → Nat → List Bool
  | [], _, _ => []
  | t :: ts, last, run =>
    if run == 9 && t != last then unstuff ts t 1
    else t :: unstuff ts t (if t == last then run + 1 else 1)

/-- The commas and fill words of R243. -/
def byhamComma : BitVec 20 := 0xFFCB4
def byhamFill : BitVec 20 := 0xFFD4B

def trainSeedUs : BitVec 58 := 0x3C41B7E92D05A63
def trainSeedDs : BitVec 58 := 0x1D26F09A4C387B5

/-- Line bits of a codeword of 3,600 bits and of the superframes (R51, R58, R71). -/
def codewordBits : Nat := 3600
def superframeBitsUs : Nat := 4 * codewordBits
def superframeBitsDs : Nat := 16 * codewordBits

/-- The PAM4 levels of one codeword: encoded, scrambled from a state and mapped (R42, R50, R54). -/
def codewordLevels (m : BitVec 3250) (s : BitVec 58) : List Int := pam4Levels 1800 (scramble codewordBits (codewordOf m) s)

/-- The levels of consecutive codewords. -/
def codewordsLevels : List (BitVec 3250) → BitVec 58 → List Int
  | [], _ => []
  | m :: ms, s => codewordLevels m s ++ codewordsLevels ms (scrAdvance codewordBits s)

/-- The message of a payload codeword: 50 blocks, block 0 first (R52). -/
def blocksMsg (b : List (BitVec 65)) : BitVec 3250 := BitVec.ofNat 3250 (lineBits (b.map fun x => (65, x.toNat)))

/-- PAM2 levels of the first n bits of a number, first on the wire first (R43). -/
def pam2Levels (n bits : Nat) : List Int := (List.range n).map fun i => pam2 ((bits >>> (n - 1 - i)) % 2 == 1)

/-- One period of the wake tone (R86). -/
def wakeTonePeriod : List Int := List.replicate 8 3 ++ List.replicate 8 (-3)

/-! ### The precoder of the link partner and the hub's fold (R78, R79) -/

/-- A value folded into [-4, 4), in units of 1/8192 (R78). -/
def fold8 (x : Int) : Int := (x + 32768) % 65536 - 32768

/-- The decision on a folded slicer input, in units of 1/8192: the nearest level. On a threshold the rules give no decision. -/
def slice4 (x : Int) : Int :=
  if x = -16384 ∨ x = 0 ∨ x = 16384 then if Config.sliceUp x then x / 8192 + 1 else x / 8192 - 1
  else if x < -16384 then -3
  else if x < 0 then -1
  else if x < 16384 then 1
  else 3

/-- The dibit of a level. -/
def dibit (a : Int) : Nat := if a = -3 then 0 else if a = -1 then 1 else if a = 1 then 3 else 2

/-- The line bits of a codeword from its 1,800 slicer inputs, folded and decided (R42, R78). -/
def decided (x : List Int) : Nat := x.foldl (fun a v => 4 * a + dibit (slice4 (fold8 v))) 0

/-- What the hub's decoder makes of one codeword: descrambled from a state, then decoded (R50, R54). -/
def decodeCodeword (x : List Int) (s : BitVec 58) : Option (Nat × BitVec 3250) :=
  (rsDecode (lineSymbols (scramble codewordBits (decided x) s))).map fun r => (r.1, symbolsMsg r.2)

/-- The output for level a after the outputs `past` (newest first), in units of 1/8192. -/
def precode (taps : List Int) (past : List Int) (a : Int) : Int :=
  fold8 (a * 8192 - (List.zipWith (· * ·) taps past).foldl (· + ·) 0 / 8192)

/-! ### Checks -/

/-- The CRC-16 of R95 over the first k bits of a structure, the first on the wire first. -/
def crc16 (k bits : Nat) : Nat :=
  (List.range k).foldl (fun c i =>
    let b := (bits >>> (k - 1 - i)) % 2
    let top := (c / 32768) % 2
    let c := (c * 2) % 65536
    if top ^^^ b = 1 then c ^^^ 0x1021 else c) 0xFFFF

/-- A Byham marker (R245): bits 20–63 and the CRC-16 over them. -/
def markerBody (lane port rptr credit : Nat) : Nat := lineBits [(5, lane), (5, port), (18, rptr), (16, credit)]

def byhamMarker (lane port rptr credit : Nat) : BitVec 80 :=
  let body := markerBody lane port rptr credit
  BitVec.ofNat 80 (lineBits [(20, byhamComma.toNat), (44, body), (16, crc16 44 body)])

/-- RPTR (R246). -/
def rptrBits (type stream back : Nat) : Nat := lineBits [(1, 1), (3, type), (2, stream), (12, back)]

/-- One step of the reflected CRC-32C (R438). -/
def crc32cByte (c : Nat) (b : W8) : Nat :=
  (List.range 8).foldl (fun c _ => if c % 2 = 1 then (c / 2) ^^^ 0x82F63B78 else c / 2) (c ^^^ b.toNat)

/-- The CRC-32C of R438. -/
def crc32c (l : List W8) : Nat := l.foldl crc32cByte 0xFFFFFFFF ^^^ 0xFFFFFFFF

/-! ### Beacon and answer (R94–R97) -/

def beaconSync : W64 := 0x9D2B61F40E7CA358
def answerSync : W64 := 0x4E17B8C2D39605AF

/-- The beacon info block (R96). -/
def beaconInfo (modes : Nat) (role devid n pepoch frame attempt : Nat) : BitVec 192 :=
  let body := lineBits [(4, 1), (8, modes), (2, role), (9, devid), (4, n), (5, pepoch), (11, frame), (8, attempt), (125, 0)]
  BitVec.ofNat 192 (body * 65536 + crc16 176 body)

/-- The answer info block (R97). -/
structure Answer where
  crcOk : Bool
  modes : Nat
  ulock : Bool
  dual : Bool
  port : Nat
  devid : Nat
  attempt : Nat
  rtxd : Nat
  vendor : Nat
  deriving DecidableEq, Repr

def parseAnswer (b : BitVec 192) : Answer :=
  { crcOk := lineFld b 176 16 == crc16 176 (b.toNat / 65536),
    modes := lineFld b 4 8,
    ulock := lineFld b 12 1 == 1,
    dual := lineFld b 13 1 == 1,
    port := lineFld b 16 4,
    devid := lineFld b 20 9,
    attempt := lineFld b 32 8,
    rtxd := lineFld b 40 8,
    vendor := lineFld b 56 16 }

/-! ### Training framing (R104, R106) -/

/-- 0xFF_FFFF: not set. -/
def seqUnset : Nat := 0xFFFFFF

def optSeq : Option Seq → Nat
  | some s => s.toNat
  | none => seqUnset

/-- The first 80 bits of the UTC; the others are 0 (R104). -/
def utcBits (cmd target phase attempt modes : Nat) (start switch : Option Seq) : BitVec 80 :=
  BitVec.ofNat 80 (lineBits [(4, 1), (4, cmd), (4, target), (4, phase), (8, attempt), (8, modes), (24, optSeq start),
    (24, optSeq switch)])

/-- The TSB (R106). -/
structure Tsb where
  crcOk : Bool
  attempt : Nat
  turn : W16
  startEcho : Seq
  swEcho : Option Seq
  seedAck : Bool
  pcAck : Option (BitVec 4)
  deriving DecidableEq, Repr

def parseTsb (b : BitVec 256) : Tsb :=
  { crcOk := lineFld b 240 16 == crc16 240 (b.toNat / 65536),
    attempt := lineFld b 8 8,
    turn := BitVec.ofNat 16 (lineFld b 16 16),
    startEcho := BitVec.ofNat 24 (lineFld b 32 24),
    swEcho := if lineFld b 56 24 == seqUnset then none else some (BitVec.ofNat 24 (lineFld b 56 24)),
    seedAck := lineFld b 80 1 == 1,
    pcAck := if lineFld b 81 1 == 1 then some (BitVec.ofNat 4 (lineFld b 82 4)) else none }

/-! ### The downstream service codeword (R61, R62, R66, R81) -/

/-- One slot descriptor: RTX, BACK, SLOT. -/
abbrev SlotDesc := Bool × BitVec 8 × BitVec 4

/-- A raster mark as it stands in its field. -/
structure RawMark where
  v : Bool
  type : BitVec 3
  stream : Fin 4
  prev : Bool
  offset : Nat
  frame : W32
  line : W16
  deriving DecidableEq, Repr

/-- An OAM message. -/
structure OamMsg where
  v : Bool
  type : Nat
  tag : W8
  len : Nat
  payload : BitVec 480
  deriving DecidableEq, Repr

structure ServiceCw where
  ver : Nat
  seq : Seq
  rtxArmed : Bool
  locked : Bool
  timingHere : Bool
  mapCur : List SlotDesc
  mapNext : List SlotDesc
  marks : List RawMark
  health : W32
  rtxStat : W64
  turn : W16
  reqAck : Seq
  oam : OamMsg
  deriving DecidableEq, Repr

def parseDesc (m : BitVec 3250) (base x : Nat) : SlotDesc :=
  (lineFld m (base + 13 * x) 1 == 1, BitVec.ofNat 8 (lineFld m (base + 13 * x + 1) 8),
    BitVec.ofNat 4 (lineFld m (base + 13 * x + 9) 4))

def parseMark (m : BitVec 3250) (i : Nat) : RawMark :=
  let o := 430 + 72 * i
  { v := lineFld m o 1 == 1,
    type := BitVec.ofNat 3 (lineFld m (o + 1) 3),
    stream := ⟨lineFld m (o + 4) 2 % 4, Nat.mod_lt _ (by decide)⟩,
    prev := lineFld m (o + 6) 1 == 1,
    offset := lineFld m (o + 8) 16,
    frame := BitVec.ofNat 32 (lineFld m (o + 24) 32),
    line := BitVec.ofNat 16 (lineFld m (o + 56) 16) }

def parseOam (m : BitVec 3250) (o : Nat) : OamMsg :=
  { v := lineFld m o 1 == 1,
    type := lineFld m (o + 1) 7,
    tag := BitVec.ofNat 8 (lineFld m (o + 8) 8),
    len := lineFld m (o + 16) 8,
    payload := BitVec.ofNat 480 (lineFld m (o + 32) 480) }

def parseService (m : BitVec 3250) : ServiceCw :=
  { ver := lineFld m 0 4,
    seq := BitVec.ofNat 24 (lineFld m 8 24),
    rtxArmed := lineFld m 32 1 == 1,
    locked := lineFld m 33 1 == 1,
    timingHere := lineFld m 34 1 == 1,
    mapCur := (List.range 15).map (parseDesc m 40),
    mapNext := (List.range 15).map (parseDesc m 235),
    marks := (List.range 4).map (parseMark m),
    health := BitVec.ofNat 32 (lineFld m 718 32),
    rtxStat := BitVec.ofNat 64 (lineFld m 750 64),
    turn := BitVec.ofNat 16 (lineFld m 814 16),
    reqAck := BitVec.ofNat 24 (lineFld m 830 24),
    oam := parseOam m 854 }

/-- A field of an OAM payload of 480 bits. -/
def OamMsg.word (o : OamMsg) (byte : Nat) : W32 := BitVec.ofNat 32 (lineFld o.payload (8 * byte) 32)
def OamMsg.byte (o : OamMsg) (i : Nat) : W8 := BitVec.ofNat 8 (lineFld o.payload (8 * i) 8)

/-! ### The upstream service codeword (R72, R76, R79, R81) -/

/-- A raster-lock command of 128 bits, or 0 (R76). -/
def rlcBits : Option (Nat × Nat × Nat) → Nat
  | some (op, id, data) => lineBits [(1, 1), (3, op), (4, 0), (8, id), (112, data)]
  | none => 0

/-- A trigger command of 96 bits, or 0; `data` is ACTION and TIME (R76). -/
def trgBits : Option (Nat × Nat) → Nat
  | some (id, data) => lineBits [(1, 1), (7, 0), (8, id), (80, data)]
  | none => 0

/-- An OAM container of 512 bits, or 0 (R81). -/
def oamBits : Option (Nat × Nat × Nat × Nat) → Nat
  | some (type, tag, len, payload480) => lineBits [(1, 1), (7, type), (8, tag), (8, len), (8, 0), (480, payload480)]
  | none => 0

/-- The PRECODER block (R79). -/
def precoderBits (set ntap : Nat) (taps : List W16) : Nat :=
  lineBits ([(4, set), (5, ntap), (7, 0)] ++ (List.range 24).map fun i => (16, (taps.getD i 0).toNat))

structure UpService where
  useq : Seq
  rtxEn : Bool
  pcValid : Bool
  seedValid : Bool
  dt : W64
  frac : W16
  path : BitVec 24
  role : BitVec 2
  devid : BitVec 9
  pepoch : BitVec 5
  reserve : W8
  win : W8
  reqBase : Seq
  reqMap : BitVec 1024
  rlc0 : Option (Nat × Nat × Nat)
  rlc1 : Option (Nat × Nat × Nat)
  trg0 : Option (Nat × Nat)
  trg1 : Option (Nat × Nat)
  precoder : Option (Nat × Nat × List W16)
  seeds : Option (BitVec 58 × BitVec 58)
  oam : Option (Nat × Nat × Nat × Nat)
  deriving DecidableEq, Repr

/-- The bits of a bitmap in the order of the wire: bit 0 first (R73). -/
def revBits (w n : Nat) : Nat := (List.range w).foldl (fun a i => 2 * a + (n >>> i) % 2) 0

def encodeUpService (u : UpService) : BitVec 3250 :=
  BitVec.ofNat 3250 (lineBits [(4, 1), (4, 0), (24, u.useq.toNat), (1, b2n u.rtxEn), (1, b2n u.pcValid),
    (1, b2n u.seedValid), (5, 0), (64, u.dt.toNat), (16, u.frac.toNat), (24, u.path.toNat), (2, u.role.toNat),
    (9, u.devid.toNat), (5, u.pepoch.toNat), (8, u.reserve.toNat), (8, u.win.toNat), (24, u.reqBase.toNat),
    (1024, revBits 1024 u.reqMap.toNat), (128, rlcBits u.rlc0), (128, rlcBits u.rlc1), (96, trgBits u.trg0), (96, trgBits u.trg1),
    (400, match u.precoder with
      | some (s, n, t) => precoderBits s n t
      | none => 0),
    (128, match u.seeds with
      | some (a, b) => lineBits [(58, a.toNat), (58, b.toNat), (12, 0)]
      | none => 0),
    (512, oamBits u.oam), (538, 0)])

end Sys2Proof.Machine
end

