-- ==== Sys2Proof/Machine/Clause36.lean ====
section
/-! DEFINITION. The 8b/10b code groups of 1000BASE-X and 2.5GBASE-X lanes, and the octets that a 65-bit block stands for (R225, R251;
IEEE 802.3 Clause 36: PRESUMED, assumption 172). -/
namespace Sys2Proof.Machine

/-! ### Octets of a block -/

/-- One octet of the media-independent interface. -/
inductive MiiOctet where
  | data (b : W8) | idle | lpi | start | term | error
  deriving DecidableEq, Repr

/-- The bits of an octet in the order of the line, as a number. -/
def lsbFirst (b : W8) : Nat := (List.range 8).foldl (fun a i => 2 * a + b2n (bit b i)) 0

/-- Octet i of a block's 64 bits. -/
def blockOctet (b : BitVec 65) (i : Nat) : W8 := BitVec.ofNat 8 (lsbFirst (BitVec.ofNat 8 (lineFld b (1 + 8 * i) 8)))

/-- The block types of a frame that ends after k octets. -/
def termTypes : List W8 := [0x87, 0x99, 0xAA, 0xB4, 0xCC, 0xD2, 0xE1, 0xFF]

/-- The eight octets that a block stands for; an ordered set has none of its own there, and gives errors. -/
def blockMii (b : BitVec 65) : List MiiOctet :=
  let octets (i k : Nat) : List MiiOctet := (List.range k).map fun j => .data (blockOctet b (i + j))
  if lineFld b 0 1 == 0 then octets 0 8
  else
    let t := blockOctet b 0
    if t == 0x1E then (List.range 8).map fun i =>
      match lineFld b (9 + 7 * i) 7 with
      | 0 => .idle
      | 0x30 => .lpi
      | _ => .error
    else if t == 0x78 then .start :: octets 1 7
    else if t == 0x33 then List.replicate 4 .idle ++ .start :: octets 5 3
    else match termTypes.idxOf? t with
      | some k => octets 1 k ++ .term :: List.replicate (7 - k) .idle
      | none => List.replicate 8 .error

/-- The octets of the data in a list, as far as it holds nothing else. -/
def dataOctets : List MiiOctet → List W8
  | .data b :: l => b :: dataOctets l
  | _ => []

/-- A control block: its type, and octets after it. -/
def controlBlock (type : W8) (octets : List W8) : BitVec 65 :=
  BitVec.ofNat 65 (lineBits ((1, 1) :: (type :: octets ++ List.replicate (7 - octets.length) 0).map fun b => (8, lsbFirst b)))

/-- The block of eight octets; what no block stands for is errored. -/
def miiBlock (l : List MiiOctet) : BitVec 65 :=
  let d := dataOctets l
  if d.length == 8 then BitVec.ofNat 65 (lineBits ((1, 0) :: d.map fun b => (8, lsbFirst b)))
  else if l == List.replicate 8 .idle then idleBlock
  else if l == List.replicate 8 .lpi then BitVec.ofNat 65 (lineBits ([(1, 1), (8, 0x78)] ++ List.replicate 8 (7, 0x30)))
  else if l.head? == some .start && (dataOctets l.tail).length == 7 then controlBlock 0x78 (dataOctets l.tail)
  else if l.take 5 == List.replicate 4 .idle ++ [.start] && (dataOctets (l.drop 5)).length == 3 then
    controlBlock 0x33 (List.replicate 4 0 ++ dataOctets (l.drop 5))
  else if (l.drop d.length).head? == some .term && (l.drop (d.length + 1)).all (· == .idle) then
    controlBlock (termTypes.getD d.length 0) d
  else errorBlock

/-! ### 8b/10b -/

/-- The 6-bit sub-blocks at negative disparity, abcdei first. -/
def sixBits : List Nat :=
  [0b100111, 0b011101, 0b101101, 0b110001, 0b110101, 0b101001, 0b011001, 0b111000] ++
  [0b111001, 0b100101, 0b010101, 0b110100, 0b001101, 0b101100, 0b011100, 0b010111] ++
  [0b011011, 0b100011, 0b010011, 0b110010, 0b001011, 0b101010, 0b011010, 0b111010] ++
  [0b110011, 0b100110, 0b010110, 0b110110, 0b001110, 0b101110, 0b011110, 0b101011]

/-- The 4-bit sub-blocks at negative disparity, fghj first. -/
def fourBits : List Nat := [0b1011, 0b1001, 0b0101, 0b1100, 0b1101, 0b1010, 0b0110, 0b1110]

/-- How many ones a sub-block of w bits holds. -/
def onesIn (w v : Nat) : Nat := ((List.range w).filter fun i => v.testBit i).length

/-- A sub-block at the running disparity (true: positive), and the disparity after it; `flips` are balanced ones with two forms. -/
def subBlock (w v : Nat) (rd flips : Bool) : Nat × Bool :=
  let uneven := 2 * onesIn w v != w
  (if rd && (uneven || flips) then 2 ^ w - 1 - v else v, if uneven then !rd else rd)

/-- One code group, bit a first: a data octet, or a special one where `k`. -/
def codeGroup (k : Bool) (b : W8) (rd : Bool) : List Bool × Bool :=
  let x := b.toNat % 32
  let y := b.toNat / 32
  let special := k && x == 28
  let six := if special then 0b001111 else sixBits.getD x 0
  let a := subBlock 6 six rd (x == 7)
  let alternate := y == 7 && (k || (!a.2 && [17, 18, 20].contains x) || (a.2 && [11, 13, 14].contains x))
  let four := if alternate then 0b0111
    else if special && (y == 1 || y == 2 || y == 5 || y == 6) then 15 - fourBits.getD y 0
    else fourBits.getD y 0
  let c := subBlock 4 four a.2 (y == 3 || (special && (y == 1 || y == 2 || y == 5 || y == 6)))
  ((List.range 6).map (fun i => a.1.testBit (5 - i)) ++ (List.range 4).map (fun i => c.1.testBit (3 - i)), c.2)

/-- Special octets: /K28.5/, /S/, /T/, /R/, /V/. -/
def kComma : W8 := 0xBC
def kStart : W8 := 0xFB
def kTerm : W8 := 0xFD
def kCarrier : W8 := 0xF7
def kError : W8 := 0xFE

def specials : List W8 := [kComma, kStart, kTerm, kCarrier, kError]

/-- The octet of a code group, and the disparity after it; none where it is no code group at that disparity. -/
def readGroup (g : List Bool) (rd : Bool) : Option (Bool × W8 × Bool) :=
  match specials.find? fun b => (codeGroup true b rd).1 == g with
  | some b => some (true, b, (codeGroup true b rd).2)
  | none =>
    (((List.range 256).map (BitVec.ofNat 8)).find? fun b => (codeGroup false b rd).1 == g).map fun b => (false, b, (codeGroup false b rd).2)

/-! ### Ordered sets -/

/-- One octet in an even or an odd place. An idle pair is /K28.5/ and then the octet that leaves the disparity negative; after /T/ one
/R/ follows, and a second where the first stood in an even place. -/
def putOctet (s : PcsTx) (even : Bool) (o : MiiOctet) : List Bool × PcsTx :=
  let put (k : Bool) (b : W8) (ext : Nat) : List Bool × PcsTx :=
    let g := codeGroup k b s.rd
    (g.1, { rd := g.2, extend := ext })
  match o with
  | .data b => put false b 0
  | .start => put true kStart 0
  | .term => put true kTerm (if even then 1 else 2)
  | .error => put true kError 0
  | .idle => if s.extend != 0 then put true kCarrier (s.extend - 1) else if even then put true kComma 0 else put false (if s.rd then 0x50 else 0xC5) 0
  | .lpi => if s.extend != 0 then put true kCarrier (s.extend - 1) else if even then put true kComma 0 else put false (if s.rd then 0x9A else 0xA6) 0

/-- The code groups of a block, and the state after it. -/
def put8b (s : PcsTx) (b : BitVec 65) : List Bool × PcsTx :=
  (List.zip (List.range 8) (blockMii b)).foldl (fun x o =>
    let r := putOctet x.2 (o.1 % 2 == 0) o.2
    (x.1 ++ r.1, r.2)) ([], s)

/-- The eight code groups of a block's bits, first first. -/
def splitGroups (x : List Bool) : List (List Bool) := (List.range 8).map fun i => (x.drop (10 * i)).take 10

/-- The octet of one code group in an even or an odd place; `paired` is the other one of its pair. -/
def groupMii (even : Bool) (paired : Option (Option (Bool × W8 × Bool))) (g : Option (Bool × W8 × Bool)) : MiiOctet :=
  let low (b : W8) : MiiOctet := if b == 0xA6 || b == 0x9A then .lpi else .idle
  match g with
  | none => .error
  | some (true, k, _) =>
    if k == kStart then .start else if k == kTerm then .term else if k == kCarrier then .idle
    else match even && k == kComma, paired with
      | true, some (some (false, b, _)) => low b
      | _, _ => .error
  | some (false, b, _) =>
    match !even, paired with
    | true, some (some (true, k, _)) => if k == kComma then low b else .data b
    | _, _ => .data b

/-- The octets of code groups, in pairs: an idle pair gives two idle octets, or two of LPI. -/
def pairMii : List (Option (Bool × W8 × Bool)) → List MiiOctet
  | a :: b :: l => groupMii true (some b) a :: groupMii false (some a) b :: pairMii l
  | [a] => [groupMii true none a]
  | [] => []

/-- The code groups read one after the other, each at the disparity that the one before has left. -/
def readGroups : List (List Bool) → Bool → List (Option (Bool × W8 × Bool)) × Bool
  | [], rd => ([], rd)
  | g :: l, rd =>
    let r := readGroup g rd
    let rest := readGroups l (match r with | some x => x.2.2 | none => rd)
    (r :: rest.1, rest.2)

/-- The block of eight received code groups, and the disparity after them. -/
def take8b (x : List Bool) (rd : Bool) : BitVec 65 × Bool :=
  let r := readGroups (splitGroups x) rd
  (miiBlock (pairMii r.1), r.2)

end Sys2Proof.Machine
end

