-- ==== Sys2Proof/Machine/Wire.lean ====
section
/-! DEFINITION. What leaves the host lanes: groups and pins, what each transmitter sends, the Byham stream with its markers, stuff
bits and fill words, the 64b/66b coding, and the PAUSE frames in it (R235, R237–R253, R258, R261, R265). -/
namespace Sys2Proof.Machine

/-! ### Lane groups (R258) -/

/-- The lane that controls a lane's group; the spare and party-wall lanes are in none. -/
def groupHead (m : Fin 20) : Option (Fin 20) := if m.val < 16 then some ⟨m.val / 4 * 4, by omega⟩ else none

def groupLanes (h : Fin 20) : List (Fin 20) := (List.finRange 20).filter fun m => m.val / 4 == h.val / 4

/-- Whether the host markers decide the group's mapping: automatic REV with all four lanes in Byham. -/
def groupAuto (d : Dev) (h : Fin 20) : Bool :=
  let rev := fld (d.lane h).cfg 26 25
  rev != 1 && rev != 2 && (groupLanes h).all fun x => (d.lane x).coding == 1

/-- A lane's group is reversed on the receive side (R258, R274). -/
def groupReversed (d : Dev) (m : Fin 20) : Bool :=
  match groupHead m with
  | some h => fld (d.lane h).cfg 26 25 == 2 || (groupAuto d h && (d.lane m).revd)
  | none => false

/-- The other lane of a reversed group that stands in a lane's place. -/
def mirrorLane (m : Fin 20) : Fin 20 := ⟨(m.val / 4 * 4 + 3 - m.val % 4) % 20, Nat.mod_lt _ (by decide)⟩

/-- The transmitter that sends a lane's stream: TX_REV reverses the assignment within the group (R258). -/
def txPin (d : Dev) (m : Fin 20) : Fin 20 :=
  match groupHead m with
  | some h => if bit (d.lane h).cfg 24 then mirrorLane m else m
  | none => m

/-! ### What a lane sends (R35, R254, R261, R265, R266) -/

def laneDomainOn (d : Dev) (m : Fin 20) : Bool := if m.val < 18 then d.pwr.laneOn else d.pwr.pwOn

inductive LaneTx where
  | off | idle | fill | localFault | data | loop | pattern
  deriving DecidableEq, Repr

def warm (d : Dev) (m : Fin 20) : Bool :=
  d.sys.mode != .reef && bit d.sys.hlSpare (if m.val == 16 then 1 else 2)

/-- A DOWN port rests, with its lane, where no port may be in any other state (R30, R34). -/
def lanesRest (d : Dev) : Bool := d.sys.mode != .run

/-- The transmitter of a lane. While its pads are held it is electrically idle (R501), and so are HL0–HL17 outside RUN (R30). A
port in UP sends data from the first payload codeword that is played out; a standard-mode port has no playout (R115). -/
def laneTx (d : Dev) (m : Fin 20) : LaneTx :=
  let l := d.lane m
  if !bit l.cfg 31 || !laneDomainOn d m then .off
  else if (if m.val < 18 then d.pwr.padLane || lanesRest d else d.pwr.padPw) then .idle
  else if bit l.cfg 21 then .pattern
  else if fld l.cfg 23 22 != 0 then .loop
  else match l.port with
    | some n =>
      match (d.port n).link.st with
      | .reef1 | .reef2 | .isolated | .retired => .idle
      | .up => if (d.port n).link.mode.std || (d.port n).rtx.played then .data else .localFault
      | .training => if (d.port n).rtx.draining then .data else .localFault
      | .down | .fenced => .localFault
    | none => if (m.val == 16 || m.val == 17) && !warm d m then .idle else .fill

/-- TX_ST (R274). -/
def txState (d : Dev) (m : Fin 20) : Nat :=
  match laneTx d m with
  | .off => 0
  | .idle => 1
  | _ => 2

/-! ### Blocks by their meaning (R53, R195, R226, R235; block formats of Clause 149 and Clause 49: PRESUMED, assumption 6) -/

/-- Eight LPI characters. -/
def lpiBlock : BitVec 65 := BitVec.ofNat 65 (lineBits ([(1, 1), (8, 0x78)] ++ List.replicate 8 (7, 0x30)))

/-- The Local Fault ordered set, and four idle characters. -/
def localFaultBlock : BitVec 65 :=
  BitVec.ofNat 65 (lineBits [(1, 1), (8, lsbFirst 0x4B), (8, 0), (8, 0), (8, lsbFirst 1), (4, 0), (28, 0)])

def dataBlock (octets : List W8) : BitVec 65 := BitVec.ofNat 65 (lineBits ((1, 0) :: octets.map fun b => (8, lsbFirst b)))

def startBlock (octets : List W8) : BitVec 65 := controlBlock 0x78 octets

/-- A frame that ended with the block before. -/
def endBlock : BitVec 65 := controlBlock 0x87 []

/-! ### PAUSE frames (R253) -/

/-- The frame check sequence of IEEE 802.3. -/
def crc32Byte (c : Nat) (b : W8) : Nat :=
  (List.range 8).foldl (fun c _ => if c % 2 = 1 then (c / 2) ^^^ 0xEDB88320 else c / 2) (c ^^^ b.toNat)

def crc32 (l : List W8) : Nat := l.foldl crc32Byte 0xFFFFFFFF ^^^ 0xFFFFFFFF

def beBytes (k v : Nat) : List W8 := (leBytes k v).reverse

/-- The 64 octets of a PAUSE of Annex 31B (PRESUMED, assumption 172); its source address is the device's, which the rules do
not give. -/
def pauseFrame (time : W16) : List W8 :=
  let body := beBytes 6 0x0180C2000001 ++ beBytes 6 Config.pauseSource.toNat ++ beBytes 2 0x8808 ++ beBytes 2 1 ++
    beBytes 2 time.toNat ++ List.replicate 42 0
  body ++ leBytes 4 (crc32 body)

/-- The ten blocks of a PAUSE: start and preamble, eight blocks of the frame, and the end. -/
def pauseBlocks (time : W16) : List (BitVec 65) :=
  startBlock (List.replicate 6 0x55 ++ [0xD5]) ::
    ((List.range 8).map fun i => dataBlock (((pauseFrame time).drop (8 * i)).take 8)) ++ [endBlock]

/-- The second block of a run of at least 12 idle blocks; `run` blocks of one have been seen just before. -/
def idleRun : Nat → Nat → List (BitVec 65) → Option Nat
  | _, _, [] => none
  | i, run, b :: bs =>
    if b == idleBlock then if run = 11 then some (i - 10) else idleRun (i + 1) (run + 1) bs
    else idleRun (i + 1) 0 bs

/-- A PAUSE in place of ten blocks inside the first such run that begins among the blocks, or with the idle block before them: the
blocks, and what is left of the PAUSE for those that follow, of which the port holds `ahead`. -/
def placePause (time : W16) (afterIdle : Bool) (blocks ahead : List (BitVec 65)) : Option (List (BitVec 65) × List (BitVec 65)) :=
  match idleRun 0 (b2n afterIdle) (blocks ++ ahead) with
  | some i =>
    if i < blocks.length then
      some ((blocks.take i ++ pauseBlocks time ++ blocks.drop (i + 10)).take blocks.length, (pauseBlocks time).drop (blocks.length - i))
    else none
  | none => none

/-! ### The Byham transmitter (R240–R249) -/

def wordBits {w : Nat} (x : BitVec w) : List Bool := (List.range w).map fun i => bit x (w - 1 - i)

/-- Stuffed bits after a run (R242): what is sent, and the run that it leaves. -/
def stuffRun : List Bool → Bool → Nat → List Bool × Bool × Nat
  | [], last, run => ([], last, run)
  | t :: ts, last, run =>
    let run := if t == last then run + 1 else 1
    if run == 9 then
      let r := stuffRun ts (!t) 1
      (t :: (!t) :: r.1, r.2)
    else
      let r := stuffRun ts t run
      (t :: r.1, r.2)

/-- The run that unstuffed bits leave. -/
def countRun : List Bool → Bool → Nat → Bool × Nat
  | [], last, run => (last, run)
  | t :: ts, last, run => countRun ts t (if t == last then run + 1 else 1)

/-- The bit times of one block of the port's stream: 64 bits of payload at 25 in 26.5625 (R238, R249). -/
def blockTimes : Int := 68

/-- Fill words, whenever the next unit would begin ahead of its time (R249). -/
def LaneSt.fillUp (l : LaneSt) : List Bool × LaneSt :=
  let k := ((l.slack + 19) / 20).toNat
  let bits := (List.replicate k (wordBits byhamFill)).flatten
  let r := countRun bits l.txLast l.txRun
  (bits, { l with txLast := r.1, txRun := r.2, slack := l.slack - 20 * (k : Int) })

/-- Bit times by which stuff bits may have moved a block: 4 ns at the lane's rate (R201), beside the 80 of a marker, for which the
nominal times leave room (DESIGN CHOICE, assumption 174). -/
def LaneSt.tolerance (l : LaneSt) : Int := 80 + (106 / 2 ^ l.div.toNat : Nat)

/-- One block: scrambled, then stuffed (R241, R242). -/
def LaneSt.putBlock (l : LaneSt) (b : BitVec 65) : List Bool × LaneSt :=
  let f := l.fillUp
  let s := laneScramble (blockBits b) f.2.txScr
  let r := stuffRun s.1 f.2.txLast f.2.txRun
  (f.1 ++ r.1, { f.2 with
    txScr := s.2, txLast := r.2.1, txRun := r.2.2, sent := l.sent + 1, slack := f.2.slack + blockTimes - (r.1.length : Int),
    marks := l.marks.map fun k => (k.1, k.2 + 1) })

/-- One marker: the comma as it is, bits 20–79 stuffed (R242, R245). -/
def LaneSt.putMarker (l : LaneSt) (w : BitVec 80) : List Bool × LaneSt :=
  let f := l.fillUp
  let c := wordBits byhamComma
  let a := countRun c f.2.txLast f.2.txRun
  let r := stuffRun ((wordBits w).drop 20) a.1 a.2
  (f.1 ++ c ++ r.1, { f.2 with
    txLast := r.2.1, txRun := r.2.2, sent := 0, slack := f.2.slack - 20 - (r.1.length : Int) })

/-- The order in which a lane takes its queued marks. -/
def markRank (t : BitVec 3) : Nat :=
  match t.toNat with
  | 0 => 0 | 1 => 1 | 3 => 2 | 4 => 3 | _ => 4

/-- The first queued mark of the lowest rank. -/
def nextMark (l : List (Mark × Nat)) : Option (Mark × Nat) :=
  (List.range 5).findSome? fun r => l.find? fun k => markRank k.1.type == r

def upFull : Nat := 32768

/-- LIMIT (R247). -/
def limitOf (p : Port) : W16 := p.up.count + BitVec.ofNat 16 (upFull - p.up.blocks.length)

/-- The next marker of a lane, with one of its queued marks and the LIMIT of its port, which is remembered (R245–R247, R252). -/
def takeMarker (d : Dev) (m : Fin 20) : BitVec 80 × Dev :=
  let l := d.lane m
  let keep := l.marks.filter fun k => decide (k.2 ≤ 4095)
  let pick := nextMark keep
  let rest := match pick with
    | some k => keep.erase k
    | none => keep
  let d := d.setLane m { l with marks := rest, rpDrop := satAdd l.rpDrop (l.marks.length - keep.length) }
  let carried := if laneTx d m == .loop then none else l.port
  let rptr := match pick with
    | some (k, back) => rptrBits k.type.toNat k.stream.val back
    | none => 0
  match carried with
  | some n =>
    let limit := limitOf (d.port n)
    (byhamMarker (txPin d m).val n.val rptr limit.toNat, d.modPort n fun p => { p with up := { p.up with limit := some limit } })
  | none => (byhamMarker (txPin d m).val 0x1F rptr 0, d)

/-- The bits of a marker, and the state after it. -/
def markerOut (d : Dev) (m : Fin 20) : List Bool × Dev :=
  let w := takeMarker d m
  let r := (w.2.lane m).putMarker w.1
  (r.1, (w.2.setLane m r.2).emit (.laneMarker (txPin d m).val w.1))

/-- The bits of one block; after 2,048 blocks a marker goes before it (R240). A block that would begin past the tolerance is discarded
and counted (R249). -/
def blockOut (d : Dev) (m : Fin 20) (b : BitVec 65) : List Bool × Dev :=
  let x := if 2048 ≤ (d.lane m).sent then markerOut d m else ([], d)
  let l := x.2.lane m
  if l.slack + l.tolerance < 0 then (x.1, x.2.setLane m { l with slack := l.slack + blockTimes, blkLost := satInc l.blkLost, overrun := true })
  else
    let r := l.putBlock b
    (x.1 ++ r.1, x.2.setLane m r.2)

/-- Bits at the pins of the transmitter that sends a lane's stream; TX_INV inverts them (R257). -/
def emitBits (d : Dev) (m : Fin 20) (bits : List Bool) : Dev :=
  let pin := txPin d m
  d.emit (.laneBits pin.val (if bit (d.lane pin).cfg 29 then bits.map not else bits))

def sendByham (d : Dev) (m : Fin 20) (blocks : List (BitVec 65)) : Dev :=
  let r := blocks.foldl (fun x b => let y := blockOut x.2 m b; (x.1 ++ y.1, y.2)) ([], d)
  emitBits r.2 m r.1

/-! ### The 64b/66b codings (R238, R250; the scrambler and the sync headers of Clause 49: PRESUMED, assumption 172) -/

/-- One block: sync header 01 for data and 10 for control, then the 64 other bits, scrambled. -/
def put66 (b : BitVec 65) (s : BitVec 58) : List Bool × BitVec 58 :=
  let x := blockBits b
  let r := laneScramble x.tail s
  ((if x.headD false then [true, false] else [false, true]) ++ r.1, r.2)

def send66 (d : Dev) (m : Fin 20) (blocks : List (BitVec 65)) : Dev :=
  let r := blocks.foldl (fun x b => let y := put66 b x.2; (x.1 ++ y.1, y.2)) ([], (d.lane m).txScr)
  emitBits (d.modLane m fun l => { l with txScr := r.2 }) m r.1

/-- A lane whose coding is a 64b/66b one. -/
def is66 (coding : BitVec 3) : Bool := coding == 2 || coding == 3 || coding == 4

/-- The code groups of blocks on an 8b/10b lane (R251). -/
def sendGroups (d : Dev) (m : Fin 20) (blocks : List (BitVec 65)) : Dev :=
  let r := blocks.foldl (fun x b => let y := put8b x.2 b; (x.1 ++ y.1, y.2)) ([], (d.lane m).txPcs)
  emitBits (d.modLane m fun l => { l with txPcs := r.2 }) m r.1

/-- Blocks on a lane, in its coding. -/
def sendBlocks (d : Dev) (m : Fin 20) (blocks : List (BitVec 65)) : Dev :=
  let c := (d.lane m).coding
  if c == 1 then sendByham d m blocks else if is66 c then send66 d m blocks
  else if c == 5 || c == 6 then sendGroups d m blocks else d

/-- The first waiting PAUSE takes its place among the blocks of a 25GBASE-R lane, and among those that follow (R253). -/
def withPause (d : Dev) (n : Fin 16) (m : Fin 20) (blocks ahead : List (BitVec 65)) : List (BitVec 65) × Dev :=
  if (d.lane m).coding != 2 then (blocks, d)
  else
    let u := (d.port n).up
    let blocks := u.pauseRest.take blocks.length ++ blocks.drop u.pauseRest.length
    let keep (d : Dev) (out rest : List (BitVec 65)) : List (BitVec 65) × Dev :=
      (out, d.modPort n fun p => { p with up := { p.up with
        pauseRest := rest, lastIdle := out.getLast? == some idleBlock } })
    match u.pauses with
    | [] => keep d blocks []
    | t :: ts =>
      match placePause t u.lastIdle blocks ahead with
      | some r => keep ((d.modPort n fun p => { p with up := { p.up with pauses := ts } }).emit (.lanePause (txPin d m).val t)) r.1 r.2
      | none => keep d blocks []

/-- The 100 ppm between a standard-mode line and its lane: where two idle blocks stand side by side, one may go or one more come; which
is the rules' to leave open (R251; assumption 172). -/
def absorbPpm (k : Nat) (blocks : List (BitVec 65)) : List (BitVec 65) :=
  let at_ := (List.range blocks.length).find? fun i => blocks[i]? == some idleBlock && blocks[i + 1]? == some idleBlock
  match at_, k % 3 with
  | some i, 1 => blocks.eraseIdx i
  | some i, 2 => blocks.insertIdx i idleBlock
  | _, _ => blocks

/-- A lane leaves electrical idle (R259): the training burst, then a marker, or an idle block. -/
def wakeLane (d : Dev) (m : Fin 20) : Dev :=
  match laneTx d m with
  | .off | .idle => d
  | .pattern => d.emit (.laneTrainingBurst (txPin d m).val)
  | _ =>
    let d := d.emit (.laneTrainingBurst (txPin d m).val)
    if (d.lane m).coding == 1 then
      let r := markerOut d m
      emitBits r.2 m r.1
    else sendBlocks d m [idleBlock]

/-! ### PRBS31 (R262) -/

/-- The next bit of x^31 + x^28 + 1. -/
def prbsNext (s : BitVec 31) : Bool := bit s 30 != bit s 27

/-- A bit enters the register. -/
def prbsPush (s : BitVec 31) (b : Bool) : BitVec 31 := (s <<< 1) ||| BitVec.ofNat 31 (b2n b)

/-- The next k bits of the pattern, and the register after them. -/
def prbsRun (k : Nat) (s : BitVec 31) : List Bool × BitVec 31 :=
  let r := (List.range k).foldl (fun (x : List Bool × BitVec 31) _ => (prbsNext x.2 :: x.1, prbsPush x.2 (prbsNext x.2))) ([], s)
  (r.1.reverse, r.2)

/-- The raw bits that a lane sends in the time of one marker period (DESIGN CHOICE, assumption 177). -/
def prbsPeriod : Nat := 2048 * 65 + 80

/-- The pattern of one period leaves a lane. -/
def prbsOut (d : Dev) (m : Fin 20) : List Bool × Dev :=
  let r := prbsRun prbsPeriod (d.lane m).prbsTx
  (r.1, d.modLane m fun l => { l with prbsTx := r.2 })

/-- One received bit: the first 31 fill the checker's register, which then runs by itself (DESIGN CHOICE, assumption 177). -/
def LaneSt.prbsBit (l : LaneSt) (b : Bool) : LaneSt :=
  if l.prbsFill < 31 then { l with prbsRx := prbsPush l.prbsRx b, prbsFill := l.prbsFill + 1 }
  else { l with
    prbsRx := prbsPush l.prbsRx (prbsNext l.prbsRx), prbsErrs := if b == prbsNext l.prbsRx then l.prbsErrs else satInc l.prbsErrs }

/-- Raw bits at the checker of a lane. -/
def prbsCheck (d : Dev) (m : Fin 20) (bits : List Bool) : Dev := d.modLane m fun l => bits.foldl LaneSt.prbsBit l

/-- One marker period of a lane comes to its end: a Local Fault stream first has its blocks, a lane without data its fill words; the
marker follows (R240, R254, R261, R265). A lane with data counts its blocks itself, and its marker leaves when they are 2,048. With
PRBS_EN raw bits leave instead (R262). -/
def periodEnd (d : Dev) (m : Fin 20) : Dev :=
  let l := d.lane m
  let marker (d : Dev) : Dev :=
    let r := markerOut d m
    emitBits r.2 m r.1
  if laneTx d m == .pattern then
    let r := prbsOut d m
    emitBits r.2 m r.1
  else if l.coding != 1 then
    match laneTx d m with
    | .localFault => sendBlocks d m [localFaultBlock]
    | .loop => sendBlocks d m [idleBlock]
    | _ => d
  else match laneTx d m with
    | .off | .idle | .pattern => d
    | .data => if 2048 ≤ l.sent then marker d else d
    | .localFault => marker (if l.sent < 2048 then sendByham d m (List.replicate (2048 - l.sent) localFaultBlock) else d)
    | .fill | .loop => marker (d.emit (.laneFill (txPin d m).val))

end Sys2Proof.Machine
end

