-- ==== Sys2Proof/Machine/Ops.lean ====
section
/-! DEFINITION. The operations the meanings share: time and raster, outputs, interrupts, event and Attic records,
operations and their completions, calendar entries, port states, link attempts and retrains. -/
namespace Sys2Proof.Machine

/-! ### Time and raster (R280, R288) -/

def Dev.stamp (d : Dev) : Stamp := ⟨d.dt.dt, d.dt.frac, d.dt.coarse⟩

/-- DT in units of 2^-16 tick. -/
def Dev.t16 (d : Dev) : Int := (d.dt.dt.toNat * 65536 + d.dt.frac.toNat : Nat)

/-- Ticks of 4 ns (R280). -/
def usTicks (us : Nat) : Nat := us * 250

/-- No raster is set while LINES is below 2 (R314). One of LP = 0, which RASTER_SET does not reject, has no lines to count, and is none
either (R292; DESIGN CHOICE, assumption 201). -/
def RasterReg.set (r : RasterReg) : Bool := decide (2 ≤ r.lines.toNat) && r.lp != 0

/-- R291. -/
def RasterReg.avail (r : RasterReg) : Bool :=
  r.set && match r.st with
    | .free | .locked | .holdover => true
    | _ => false

/-- The length of a frame in 2^-16 tick. -/
def RasterReg.frameLen (r : RasterReg) : Nat := r.lines.toNat * r.lp.toNat

/-- F(k), in 2^-16 tick (R288): of the frames that a 32-bit number k names, the one nearest to the frame of instant t. -/
def RasterReg.frameStart (r : RasterReg) (t : Int) (k : W32) : Int :=
  let q := (t - r.anchor) / r.frameLen
  r.anchor + (q + (k - r.frame0 - BitVec.ofInt 32 q).toInt) * r.frameLen

/-- The raster position of an instant (R288). -/
def RasterReg.posAt (r : RasterReg) (t : Int) : RPos :=
  if r.set then
    let rel := t - r.anchor
    let q := rel / r.frameLen
    let rem := (rel % r.frameLen).toNat
    ⟨r.frame0 + BitVec.ofInt 32 q, BitVec.ofNat 16 (rem / r.lp.toNat),
      BitVec.ofNat 16 ((rem % r.lp.toNat) * 65536 / r.lp.toNat), false⟩
  else {}

/-- The position a record carries: 0 with RASTER_UNAVAILABLE while the raster is not available (R355). -/
def Dev.rpos (d : Dev) : RPos := if d.raster.avail then d.raster.posAt d.t16 else {}

/-- Whether a line lies in the blanking window, which wraps when FIRST is above LAST (R288). -/
def RasterReg.inBlank (r : RasterReg) (line : Nat) : Bool :=
  if r.first.toNat ≤ r.last.toNat then decide (r.first.toNat ≤ line) && decide (line ≤ r.last.toNat)
  else decide (r.first.toNat ≤ line) || decide (line ≤ r.last.toNat)

/-- A frame of 16.7 ms where no master raster is set (R300, R304). -/
def nominalFrame : Nat := 4166667

/-! ### What OTP gives (R552, R581) -/

/-- The factory codes of a port's trims; the last register holds two (R598). -/
def factoryTrims (n : Fin 16) : List W8 := (List.range 50).map (Config.factoryTrim n.val) ++ [0, 0]

/-- The rows of a memory that fuse records replace (R555). -/
def fusedRows (d : Dev) (x : Nat) : List (Nat × Nat) :=
  ((Config.fuses ++ d.bist.fused).filter fun r => r.1 == x).map (·.2)

/-! ### Messages and records (R333, R355–R359, R368) -/

/-- The message of a vector: sent, or held pending while the vector is masked (R368). -/
def msix (d : Dev) (f : Fn) (v : Nat) : Dev :=
  if h : v < 64 then
    let x := d.fn f
    let e := x.msix[v]
    if e.masked then d.setFn f { x with msix := x.msix.set v { e with pending := true } }
    else d.emit (.msix f v)
  else d

def ringDepth (cfg : W32) : Nat := 2 ^ (fld cfg 19 16 + 6)

def ringNext (cfg : W32) (i : W16) : W16 := BitVec.ofNat 16 ((i.toNat + 1) % ringDepth cfg)

/-- Full: the producer index + 1 equals the consumer index (R330). -/
def ringFull (cfg : W32) (prod cons : W16) : Bool := ringNext cfg prod == cons

/-- The event record of R355. -/
def eventBytes (s : Stamp) (p : RPos) (type : Nat) (scope : Nat) (seq : W32) (handle : W16) (late cont phase : Bool)
    (payload : List W8) : List W8 :=
  leBytes 2 type ++
  [BitVec.ofNat 8 (b2n s.coarse + 2 * b2n p.unavail + 4 * b2n late + 8 * b2n cont + 128 * b2n phase),
   BitVec.ofNat 8 scope] ++
  leBytes 4 seq.toNat ++ leBytes 8 s.dt.toNat ++ leBytes 2 s.frac.toNat ++ leBytes 2 handle.toNat ++
  leBytes 4 p.frame.toNat ++ leBytes 2 p.line.toNat ++ leBytes 2 p.phase.toNat ++ padTo 36 payload

/-- An event for one function: written with the next SEQ, or lost when the ring is full or not running (R355, R357). -/
def eventTo (d : Dev) (f : Fn) (s : Stamp) (p : RPos) (type scope : Nat) (payload : List W8) (handle : W16 := 0xFFFF)
    (late cont : Bool := false) : Dev :=
  let x := d.fn f
  let e := x.ev
  if e.st == .run && !ringFull e.cfg e.prod e.cons then
    let bytes := eventBytes s p type scope e.seq handle late cont e.phase payload
    let nx := ringNext e.cfg e.prod
    let d := d.setFn f { x with ev := { e with
      prod := nx, phase := if nx == 0 then !e.phase else e.phase, seq := e.seq + 1 } }
    msix (d.emit (.memWrite f (e.base + BitVec.ofNat 64 (e.prod.toNat * 64)) bytes)) f (fld e.cfg 29 24)
  else d.setFn f { x with ev := { e with lost := satInc e.lost, seq := e.seq + 1 } }

/-- SCOPE of R355: 0 device, 1 port, 2 lane. -/
def scopePort (n : Fin 16) : Nat := 64 + n.val
def scopeLane (m : Fin 20) : Nat := 128 + m.val

/-- An event of a type that goes to both functions (R356). -/
def eventBoth (d : Dev) (type scope : Nat) (payload : List W8) : Dev :=
  let d' := eventTo d .pf0 d.stamp d.rpos type scope payload
  eventTo d' .pf1 d.stamp d.rpos type scope payload

/-- One Attic record of R358; while the controller is down or its DMA channel halted, it is skipped (R26, R365). -/
def atticAt (d : Dev) (n : Fin 16) (s : Stamp) (p : RPos) (type : Nat) (payload : List W8) : Dev :=
  let pt := d.port n
  let a := pt.attic
  if !a.on then d
  else if !pt.pc.up || a.dmaHalt then d.setPort n { pt with attic := { a with skipped := satInc a.skipped } }
  else
    let bytes := [BitVec.ofNat 8 type, BitVec.ofNat 8 (b2n s.coarse + 2 * b2n p.unavail + 128 * b2n a.phase)] ++
      leBytes 2 a.seq.toNat ++ leBytes 8 s.dt.toNat ++ leBytes 4 p.frame.toNat ++ leBytes 2 p.line.toNat ++
      leBytes 2 p.phase.toNat ++ padTo 12 payload
    let wrap := a.idx + 1 == 2 ^ a.depth
    (d.setPort n { pt with attic := { a with
      idx := if wrap then 0 else a.idx + 1, phase := if wrap then !a.phase else a.phase, seq := a.seq + 1 } }).emit
      (.memWrite .pf0 (a.addr + BitVec.ofNat 64 (a.idx * 32)) bytes)

def attic (d : Dev) (n : Fin 16) (type : Nat) (payload : List W8) : Dev := atticAt d n d.stamp d.rpos type payload

/-- The GAP record that follows skipped records (R26, R365). -/
def atticGap (d : Dev) (n : Fin 16) : Dev :=
  let a := (d.port n).attic
  if a.skipped == 0 || !(d.port n).pc.up || a.dmaHalt then d
  else
    let d := d.modPort n fun p => { p with attic := { p.attic with skipped := 0 } }
    attic d n 0x04 (leBytes 4 a.skipped.toNat)

/-- A port event that has no Attic type of its own: the event, and an EVENT record (R356, R358). -/
def portEvent (d : Dev) (n : Fin 16) (type : Nat) (payload : List W8) (toPf1 : Bool := false) : Dev :=
  let s := d.stamp
  let p := d.rpos
  let d := eventTo d .pf0 s p type (scopePort n) payload
  let d := if toPf1 then eventTo d .pf1 s p type (scopePort n) payload else d
  atticAt d n s p 0x06 (leBytes 2 type ++ payload.take 10)

/-! ### Operations and completions (R338–R345) -/

/-- Status codes of R345. -/
def stSuccess : W16 := 0x0000
def stAccepted : W16 := 0x0001
def stCancelled : W16 := 0x0002
def stAbortedByWake : W16 := 0x0003
def stTimeout : W16 := 0x0010
def stBadOpcode : W16 := 0x0011
def stBadParam : W16 := 0x0012
def stPrivilege : W16 := 0x0013
def stState : W16 := 0x0014
def stQuota : W16 := 0x0015
def stCalFull : W16 := 0x0016
def stNoHandle : W16 := 0x0017
def stNotCancellable : W16 := 0x0018
def stBusy : W16 := 0x0019
def stPassed : W16 := 0x001A
def stDmaError : W16 := 0x001B
def stPcReset : W16 := 0x001C
def stVerify : W16 := 0x001D
def stTestFail : W16 := 0x001E

/-- The completion of R338; KIND 0 ACCEPTED, 1 FINAL. -/
def completionBytes (tag handle status : W16) (ring : Fin 16) (kind : Nat) (phase : Bool) (sqHead detail : W16)
    (r0 r1 : W32) (s : Stamp) : List W8 :=
  leBytes 2 tag.toNat ++ leBytes 2 handle.toNat ++ leBytes 2 status.toNat ++
  [BitVec.ofNat 8 (ring.val + 16 * kind), BitVec.ofNat 8 (b2n s.coarse + 128 * b2n phase)] ++
  leBytes 2 sqHead.toNat ++ leBytes 2 detail.toNat ++ leBytes 4 r0.toNat ++ leBytes 8 s.dt.toNat ++
  leBytes 2 s.frac.toNat ++ [0, 0] ++ leBytes 4 r1.toNat

/-- The completion ring bound to a submission ring (R332). -/
def boundCq (x : FnSt) (k : Fin 16) : Fin 16 := ⟨fld x.sq[k.val].cfg 23 20 % 16, Nat.mod_lt _ (by decide)⟩

/-- A completion ring takes an entry: it runs and has room. -/
def cqRoom (c : CqRing) : Bool := c.st == .run && !ringFull c.cfg c.prod c.cons

/-- One completion of ring k written to completion ring j, and its message under CO_CNT (R333, R368). -/
def putCompletion (d : Dev) (f : Fn) (k j : Fin 16) (tag handle status : W16) (kind : Nat) (sqHead detail : W16)
    (r0 r1 : W32) (s : Stamp) : Dev :=
  let x := d.fn f
  let c := x.cq[j.val]
  let bytes := completionBytes tag handle status k kind c.phase sqHead detail r0 r1 s
  let nx := ringNext c.cfg c.prod
  let since := c.sinceMsg + 1
  let send := fld c.cfg 15 8 == 0 || decide (fld c.cfg 15 8 ≤ since)
  let c' : CqRing := { c with
    prod := nx, phase := if nx == 0 then !c.phase else c.phase, sinceMsg := if send then 0 else since }
  let d := (d.setFn f { x with
    cq := x.cq.set j.val c',
    timeouts := if status == stTimeout then satInc x.timeouts else x.timeouts }).emit
      (.memWrite f (c.base + BitVec.ofNat 64 (c.prod.toNat * 32)) bytes)
  if send then msix d f (fld c.cfg 29 24) else d

def findOp (d : Dev) (h : W16) : Option Op := d.host.ops.find? fun o => o.handle == h

def modOp (d : Dev) (h : W16) (f : Op → Op) : Dev :=
  { d with host := { d.host with ops := d.host.ops.map fun o => if o.handle == h then f o else o } }

def dropOp (d : Dev) (h : W16) : Dev :=
  { d with host := { d.host with ops := d.host.ops.filter fun o => o.handle != h } }

/-- The port controller that runs an operation (R26). -/
def Op.controller (o : Op) : Option (Fin 16) :=
  match o.cmd with
  | .diagTdr p | .diagSignature p _ _ | .oamSend p _ _ _ => if o.started then portOf p else none
  | .capture p _ _ _ _ => if o.fails1 == 1 then portOf p else none
  | _ => none

/-- A completion of a port controller while the manager restarts: it waits in the queue of 8 words, or behind it in the data
SRAM (R27, R405). -/
def queueCompletion (d : Dev) (n : Fin 16) : Dev :=
  d.modPort n fun p => { p with pc :=
    if p.pc.toMgr < 8 then { p.pc with toMgr := p.pc.toMgr + 1 } else { p.pc with held := p.pc.held + 1 } }

/-- The operation o ends: its FINAL completion is due. A result in the tick of the deadline counts in NEAR (R344). -/
def endWith (o : Op) (status detail : W16) (r0 r1 : W32) (d : Dev) : Dev :=
  let d := modOp d o.handle fun o => { o with
    final := some { status := status, detail := detail, r0 := r0, r1 := r1, stamp := d.stamp } }
  let d := match o.controller with
    | some n => if d.sys.mgrUp then d else queueCompletion d n
    | none => d
  if o.deadline == d.dt.dt && status != stTimeout then
    d.modFn o.fn fun x => { x with near := satInc x.near }
  else d

/-- The operation of a handle ends, if it has not ended. -/
def endOp (d : Dev) (h status : W16) (detail : W16 := 0) (r0 r1 : W32 := 0) : Dev :=
  match findOp d h with
  | none => d
  | some o => if o.final.isSome then d else endWith o status detail r0 r1 d

/-- Every operation under way that a test picks ends; one that FENCE still holds has not begun (R337, R340). -/
def endOps (d : Dev) (pick : Op → Bool) (status : W16) (detail : W16 := 0) (r0 r1 : W32 := 0) : Dev :=
  (d.host.ops.filter fun o => o.final.isNone && o.started && pick o).foldl (fun d o => endWith o status detail r0 r1 d) d

/-- The port a port command names (R348). -/
def Op.portCmd (o : Op) : Option W8 :=
  match o.cmd with
  | .portConfig p _ _ => some p
  | .portUp p => some p
  | .portDown p => some p
  | .portIsolate p => some p
  | .diagTdr p => some p
  | .diagSignature p _ _ => some p
  | .laneSpare p _ => some p
  | .oamSend p _ _ _ => some p
  | _ => none

def Op.isPort (o : Op) (n : Fin 16) : Bool := o.portCmd == some (BitVec.ofNat 8 n.val)

/-- The live operation that has not ended and that a test picks. -/
def liveOp (d : Dev) (pick : Op → Bool) : Option Op := d.host.ops.find? fun o => o.final.isNone && pick o

/-! ### Calendar entries (R300, R301) -/

def insertEntry (e : CalEntry) : List CalEntry → List CalEntry
  | [] => [e]
  | x :: xs => if e.idx < x.idx then e :: x :: xs else x :: insertEntry e xs

/-- The lowest index that no entry of a sorted list uses, counted from i. -/
def freeIdx (i : Nat) : List CalEntry → Nat
  | [] => i
  | x :: xs => if x.idx == i then freeIdx (i + 1) xs else i

def placeEntry (d : Dev) (e : CalEntry) : Dev :=
  let e := { e with idx := freeIdx 0 d.hal.cal }
  { d with hal := { d.hal with cal := insertEntry e d.hal.cal } }

def dropEntries (d : Dev) (pick : CalEntry → Bool) : Dev :=
  { d with hal := { d.hal with cal := d.hal.cal.filter fun e => !pick e } }

def modEntry (d : Dev) (i : Nat) (f : CalEntry → CalEntry) : Dev :=
  { d with hal := { d.hal with cal := d.hal.cal.map fun e => if e.idx == i then f e else e } }

/-- An entry of the device's own for one port (R301). -/
def CalEntry.ownOf (e : CalEntry) (n : Fin 16) : Bool := e.handle == 0xFFFF && bit e.ports n.val

def portMask (n : Fin 16) : W16 := BitVec.ofNat 16 (2 ^ n.val)

/-- ADAPT_STEP entries of the device: a repeating BLANK entry for an UP port that holds updates or starts its ramps in
blanking (R301). -/
def wantsAdapt (d : Dev) (n : Fin 16) : Bool :=
  let p := d.port n
  p.link.st == .up && (bit p.cfg.rxCfg 9 || (bit d.sys.shrCfg 1 && bit p.cfg.shrPort 7))

def adaptEntry (d : Dev) (n : Fin 16) : Dev :=
  let have_ := d.hal.cal.any fun e => e.ownOf n && e.action == 0x01
  if wantsAdapt d n && !have_ then
    placeEntry d {
      idx := 0, trig := 3, time := 0, rep := 1, ports := portMask n, action := 0x01, arg := 0,
      handle := 0xFFFF, fallback := d.dt.dt }
  else if !wantsAdapt d n && have_ then dropEntries d fun e => e.ownOf n && e.action == 0x01
  else d

/-- The slew in progress stops with the correction applied so far (R284). -/
def stopSlew (d : Dev) : Dev := { d with dt := { d.dt with slew := 0, adj := d.dt.trim, slewOp := none } }

/-- Causes of the CAL record (R591). -/
def calByTemp : W8 := 0
def calByCommand : W8 := 1
def calByPrep : W8 := 2
def calByAmp : W8 := 3

/-! ### Registers that completions carry -/

/-- PT_LINK_STAT (R138). -/
def ptLinkStat (p : Port) : W32 :=
  at_ 29 p.link.st.code ||| at_ 25 p.link.phase.toNat ||| atB 24 p.link.fast ||| at_ 20 p.link.mode.code |||
  atB 19 p.link.polInv ||| atB 18 p.link.lowMargin ||| atB 17 p.link.partnerValid |||
  atB 16 (p.link.st == .up && p.rtx.wAct != 0) ||| at_ 12 p.link.lastFail.toNat ||| at_ 8 p.link.fails.toNat |||
  at_ 0 p.link.near.toNat

/-- PT_MARGIN (R139). -/
def ptMargin (p : Port) : W32 := at_ 16 p.link.marginCur.toNat ||| at_ 0 p.link.marginAtUp.toNat

/-! ### Bundles, filter states and ramps (R154, R162–R167) -/

/-- The bundle of a port (R154, R180). -/
def bundle (d : Dev) (n : Fin 16) : Option Nat :=
  let b := fld (d.port n).cfg.shrPort 2 0
  if b < 4 then some b else none

def sameBundle (d : Dev) (n s : Fin 16) : Bool := n != s && (bundle d n).isSome && bundle d n == bundle d s

/-- States of R162. -/
def fOut : BitVec 3 := 0
def fTrain : BitVec 3 := 1
def fWait : BitVec 3 := 2
def fRampIn : BitVec 3 := 3
def fIn : BitVec 3 := 4
def fRampOut : BitVec 3 := 5
def fKept : BitVec 3 := 6
def fWeak : BitVec 3 := 7

/-- KEEP_T = 0 retains nothing (R179). -/
def keepsNone (d : Dev) : Bool := fld d.sys.shrCfg 31 24 == 0

/-- The full weight, in units of 2^-24. -/
def fullW : Nat := 2 ^ 24

/-- A filter enters a state now. -/
def Filt.enter (f : Filt) (st : BitVec 3) (t : W64) : Filt := { f with st := st, was := f.st, since := t }

/-- A filter without coefficients. -/
def toOut (t : W64) : Filt := { since := t }

/-- A filter whose w has reached 0 (R163): KEPT while its source remains in the bundle. -/
def toKept (d : Dev) (n s : Fin 16) (f : Filt) : Filt :=
  if sameBundle d n s && !keepsNone d then { f.enter fKept d.dt.dt with w := 0 } else toOut d.dt.dt

/-- RAMP_SH, reserved values read as 20 (R179). -/
def rampSh (d : Dev) : Nat :=
  let r := fld d.sys.shrCfg 20 16
  if 16 ≤ r ∧ r ≤ 24 then r else 20

/-- A full ramp in DT ticks, in 180ths of 2^RAMP_SH, by mode (R164). -/
def rampUnits : LineMode → Nat
  | .none => 0 | .gl25 => 3 | .gl12 => 6 | .gl6 => 12 | .t10g => 8 | .t5g => 16 | .t2g5 => 32 | .t1g => 60

/-- DT ticks of 2^k victim symbols, rounded up. -/
def symbolTicks (k : Nat) (m : LineMode) : Nat := (2 ^ k * rampUnits m + 179) / 180

def rampTicks (d : Dev) (m : LineMode) : Nat := symbolTicks (rampSh d) m

/-- A port has a line mode while it trains or has a link (R166; assumption 80). -/
def hasMode (p : Port) : Bool :=
  match p.link.st with
  | .training | .up | .reef1 | .reef2 => true
  | _ => false

/-- T_LEAVE: the longest full ramp among the other members of the bundle, in DT ticks (R166, R183). -/
def tLeave (d : Dev) (n : Fin 16) : Nat :=
  allPorts.foldl (fun t s => if sameBundle d n s && hasMode (d.port s) then max t (rampTicks d (d.port s).link.mode) else t) 0

/-- Every running leave takes the present T_LEAVE, where it is larger (R166). -/
def growLeaves (d : Dev) : Dev :=
  d.eachPort fun d n => d.modPort n fun p => { p with shr := { p.shr with
    leaves := p.shr.leaves.map fun l => { l with len := max l.len (tLeave d n) } } }

/-- A filter that has come to IN keeps its coefficients as its anchor (R149). -/
def Filt.comeIn (f : Filt) (t : W64) : Filt := { f.enter fIn t with w := fullW, a := f.c }

/-- No ramp takes place in TRAINING: one that runs when the port enters it is at its end at once (R165). -/
def endRamps (d : Dev) (n : Fin 16) : Dev :=
  d.modPort n fun p =>
    let g (s : Fin 16) (f : Filt) : Filt :=
      if f.st == fRampIn then f.comeIn d.dt.dt else if f.st == fRampOut then toKept d n s f else f
    { p with shr := { p.shr with
      ne := Vector.ofFn fun s => g s p.shr.ne[s.val], fe := Vector.ofFn fun s => g s p.shr.fe[s.val] } }

/-! ### Port states (R34–R38) -/

/-- A leave for a command or for SHR_PORT runs to its end whatever state the port enters meanwhile, but for the state that the
command asks for (R166). -/
def keepsLeave (st : PortSt) (l : Leave) : Bool :=
  match l.what with
  | .shrPort _ => true
  | .portDown => st != .down
  | .portIsolate => st != .isolated

/-! ### State changes -/

/-- What leaving one state for another does inside the port (R166, R198, R205, R297). -/
def leaveSt (old st : PortSt) (p : Port) : Port :=
  let quiet := st == .reef1 || st == .reef2 || st == .down || st == .isolated || st == .fenced || st == .retired
  { p with
    link := { p.link with
      st := st, phase := if st == .up then 8 else 0, fast := false, attemptTimer := false, backoff := false, reefRetry := false,
      lowMargin := p.link.lowMargin && st == .up }
    rtx :=
      if st == .up && p.rtx.draining then
        { p.rtx with draining := false, winUp := false, played := false, busy := 0, entries := [], maps := [], newest := none, oldAnchor := none }
      else if st == .up then { p.rtx with draining := false, winUp := false, played := false, busy := 0 }
      else if st == .training && old == .up then
        { p.rtx with draining := p.link.mode.gletik, winUp := false, oldAnchor := p.rtx.dsAnchor }
      else if st == .training then p.rtx
      else { p.rtx with winUp := false, entries := [], maps := [], newest := none, draining := false, wAct := 0, reduced := false },
    fresh := if quiet then { p.fresh with armed := 0, stale := 0, waiting := [] } else p.fresh,
    raster := if st == .up then p.raster else { p.raster with st := .none, retry := false, deltas := [], startDue := false, eof := none, win := none },
    train := if st == .up || st == .reef1 then p.train else { pcSet := p.train.pcSet },
    line := { p.line with
      reefAt := none, reefCancel := false, reefStay := false,
      refreshBad := 0 },
    std := { (if st == .down || st == .isolated || st == .fenced || st == .retired then
        { p.std with mode := .none, master := false, eee := false, oam := false } else p.std) with
      handshake := false, tc10Sleep := p.std.tc10Sleep && st == .reef2,
      lpiRx := p.std.lpiRx && (st == .up || st == .reef1), lpiTx := p.std.lpiTx && (st == .up || st == .reef1) },
    shr := { p.shr with leaves := p.shr.leaves.filter (keepsLeave st) } }

/-- A state change is reported: the PORT_STATE event and the STATE record (R356, R359). -/
def reportState (d : Dev) (n : Fin 16) (old : PortSt) : Dev :=
  let p := d.port n
  let head : List W8 := [BitVec.ofNat 8 old.code, BitVec.ofNat 8 p.link.st.code, BitVec.ofNat 8 p.link.mode.code,
    BitVec.ofNat 8 p.link.lastFail.toNat]
  let s := d.stamp
  let r := d.rpos
  let d := eventTo d .pf0 s r 0x0016 (scopePort n) head
  let d := eventTo d .pf1 s r 0x0016 (scopePort n) head
  atticAt d n s r 0x02 (head ++ leBytes 2 p.link.marginCur.toNat)

/-- The sources of R203 end with the guard. -/
def dropStale (d : Dev) (n : Fin 16) : Dev :=
  let g := d.flt.port[n.val]
  { d with flt := { d.flt with port := d.flt.port.set n.val { g with hwLive := g.hwLive &&& 0xFF87 } } }

/-- Loopbacks and patterns end when the port leaves ISOLATED (R261). -/
def endLoopback (d : Dev) (n : Fin 16) : Dev :=
  d.modLane (d.port n).lane fun l => { l with cfg := l.cfg &&& 0xFF1F_FFFF }

/-- Insertion into a list sorted by its keys. -/
def c45Put (k : BitVec 21) (v : W16) : List (BitVec 21 × W16) → List (BitVec 21 × W16)
  | [] => [(k, v)]
  | x :: xs =>
    if k.toNat < x.1.toNat then (k, v) :: x :: xs
    else if k == x.1 then (k, v) :: xs
    else x :: c45Put k v xs

/-- Address of a register: MMD and number. -/
def c45Key (mmd reg : Nat) : BitVec 21 := BitVec.ofNat 21 (mmd * 65536 + reg)

/-- A test mode control register, its field in [15:13] (PRESUMED, assumption 176). -/
def c45Test (k : BitVec 21) : Bool := k == c45Key 1 2308 || k == c45Key 1 2313

/-- A PMA test mode exists in ISOLATED only: it ends when the port leaves that state (R214). -/
def endPmaTest (d : Dev) (n : Fin 16) : Dev :=
  let l := (d.port n).std.c45
  if l.any fun x => c45Test x.1 && decide (0x2000 ≤ x.2.toNat) then
    (d.modPort n fun p => { p with std := { p.std with
      c45 := l.map fun x => if c45Test x.1 then (x.1, x.2 &&& 0x1FFF) else x } }).emit (.pmaTest n 0)
  else d

/-- OAM at a new port state. The commands that the hub still repeats go on in REEF1 and through an abbreviated switch, whose upstream stays
operational (R77, R131, R134). -/
def endOam (d : Dev) (n : Fin 16) (old st : PortSt) : Dev :=
  let d := if old == .up && st != .up then
      (endOps d (fun o => o.isPort n && match o.cmd with | .oamSend .. => true | _ => false) stState
        (BitVec.ofNat 16 st.code)).modPort n fun p => { p with oam := { p.oam with live := [] } }
    else d
  if st == .up || st == .reef1 || st == .training then d else d.modPort n fun p => { p with oam := { p.oam with cmds := [] } }

/-- A DIAG_TDR, which runs only while its port is ISOLATED, completes with STATE when the port leaves that state (R571; DEDUCED,
assumption 214). -/
def endTdr (d : Dev) (n : Fin 16) (old st : PortSt) : Dev :=
  if old == .isolated then
    endOps d (fun o => o.isPort n && match o.cmd with | .diagTdr _ => true | _ => false) stState (BitVec.ofNat 16 st.code)
  else d

/-- The operations that a new port state completes (R346, R350). -/
def endPortOps (d : Dev) (n : Fin 16) (old st : PortSt) : Dev :=
  let p := d.port n
  let d := endTdr (endOam d n old st) n old st
  match st with
  | .up => endOps d (fun o => o.isPort n && match o.cmd with | .portUp _ => true | _ => false) stSuccess 0
      (ptLinkStat p) (ptMargin p)
  | .down => endOps d (fun o => o.isPort n && match o.cmd with | .portDown _ => true | _ => false) stSuccess
  | .isolated => endOps d (fun o => o.isPort n && match o.cmd with | .portIsolate _ => true | _ => false) stSuccess
  | _ => d

/-- A blanking-bound action is counted UNBLANKED (R304, R305, R322). -/
def countUnblanked (d : Dev) : Dev := { d with hal := { d.hal with unblanked := satInc d.hal.unblanked } }

/-- A planned switch is over: it counts when its outage went past the window (R132). -/
def endSwitch (d : Dev) (n : Fin 16) (st : PortSt) : Dev :=
  match (d.port n).line.dsEnd with
  | some t =>
    let d := d.modPort n fun p => { p with line := { p.line with dsEnd := none } }
    if st != .up || decide (t < d.dt.dt) then countUnblanked d else d
  | none => d

/-- The domain of a retired port is off: the contents of its slice are lost, and a calibration run there is over, with its steps
(R35, R167, R301); its pads latch (R480), and its isolation cells hold its sources not live (R515). -/
def retireOff (d : Dev) (n : Fin 16) : Dev :=
  let g := d.flt.port[n.val]
  let d := { d with
    pwr := { d.pwr with padPort := setBit d.pwr.padPort n.val true },
    flt := { d.flt with port := d.flt.port.set n.val { g with hwLive := 0 } } }
  dropEntries (d.modPort n fun p => { p with
    shr := { p.shr with ne := Vector.replicate 16 {}, fe := Vector.replicate 16 {} },
    on := false, diag := { p.diag with calRunning := false, calTargets := [], plan := {} } }) fun e => e.ownOf n && e.action == 0x02

/-- TTC at a time: it counts down between fits, in units of 10 s (R589). -/
def ttcNow (t : W64) (g : DiagSt) : Seq :=
  if g.ttc == 0xFF_FFFF then g.ttc else BitVec.ofNat 24 (g.ttc.toNat - (t - g.plan.ttcAt).toNat / 2500000000)

/-- The time that a port spends in UP (R588). -/
def upClock (t : W64) (p : Port) : Port :=
  let s := p.diag.plan
  let s := match s.upSince with
    | some a => { s with upTicks := s.upTicks + (t - a).toNat }
    | none => s
  { p with diag := { p.diag with plan := { s with upSince := if p.link.st == .up then some t else none } } }

/-- What an entry to Reef leaves to remember: its tick, where the port was UP (R37), and the mode in which REEF2 has put the link
partner to sleep (R135, R230). -/
def noteReef (d : Dev) (old : PortSt) (p : Port) : Port :=
  let reef := p.link.st == .reef1 || p.link.st == .reef2
  { p with link := { p.link with
    clkOk := p.link.clkOk && p.link.st != .up,
    reefTick := if reef && old == .up && d.dt.running then some d.dt.dt else p.link.reefTick,
    asleep := if p.link.st == .reef2 then p.link.mode else if p.link.st == .up then .none else p.link.asleep } }

/-! ### Gating (R470) -/

/-- The ports of a test, as a mask. -/
def portsThat (d : Dev) (pick : Port → Bool) : W16 :=
  allPorts.foldl (fun m n => if pick (d.port n) then m ||| portMask n else m) 0

def allLanes : List (Fin 20) := List.finRange 20

/-- The lanes of domain LANE, and those of domain PW. -/
def lowLanes : List (Fin 20) := allLanes.filter fun m => decide (m.val < 18)
def pwLanes : List (Fin 20) := allLanes.filter fun m => decide (18 ≤ m.val)

/-- A 0 in a gating register is obeyed for a port that is RETIRED, or DOWN with no attempt pending. -/
def portStops (p : Port) : Bool := p.link.st == .retired || (p.link.st == .down && !p.link.backoff)

/-- The clocks that no gating register stops: of the ports, of LANE (bit 16) and of PW (bit 17). -/
def neededClocks (d : Dev) : W32 :=
  let lanes (ms : List (Fin 20)) : Bool := ms.any fun m => bit (d.lane m).cfg 31
  (portsThat d fun p => !portStops p).setWidth 32 ||| atB 16 (lanes lowLanes) ||| atB 17 (lanes pwLanes)

/-- The gating register of a device mode, where one of the two applies. -/
def gateOf (d : Dev) (m : Mode) : Option W32 :=
  match m with
  | .run | .hold | .safe | .maintain => some d.clk.gateRun
  | .reef => some d.clk.gateSleep
  | .off | .boot | .deep => none

/-- The clocks that run although a register has a 0 for them. -/
def overridden (g : Option W32) (need : W32) : W32 :=
  match g with
  | some g => need &&& ~~~g &&& 0x3_FFFF
  | none => 0

def countBits (w : W32) : Nat := ((List.range 32).filter fun i => bit w i).length

/-- Overrides that begin as the clocks needed grow. -/
def newOverrides (d : Dev) (before : W32) : Nat :=
  countBits (overridden (gateOf d d.sys.mode) (neededClocks d) &&& ~~~before)

/-- Overrides that begin as a device mode brings its gating register into force. -/
def modeOverrides (d : Dev) (m : Mode) : Nat :=
  let need := neededClocks d
  countBits (overridden (gateOf d m) need &&& ~~~(overridden (gateOf d d.sys.mode) need))

/-- A port whose clock its register stops, and that leaves the states in which that is obeyed, overrides it. -/
def noteGate (d : Dev) (n : Fin 16) (p : Port) : Port :=
  let gated := match gateOf d d.sys.mode with
    | some g => !bit g n.val
    | none => false
  if gated && portStops (d.port n) && !portStops p then { p with link := { p.link with ovr := p.link.ovr + 1 } } else p

/-- Port n enters a state (R36). Nothing of another port changes (R38). From Reef into TRAINING its lane leaves electrical
idle with a training burst (R259). -/
def enterSt (d : Dev) (n : Fin 16) (st : PortSt) : Dev :=
  let old := (d.port n).link.st
  if old == st then d
  else
    let d := d.modPort n fun p => noteGate d n (noteReef d old (upClock d.dt.dt (leaveSt old st p)))
    let d := if st == .training then endRamps d n else d
    let d := endSwitch d n st
    let d := if st == .up || st == .training then d else dropStale d n
    let d := if old == .isolated then endPmaTest (endLoopback d n) n else d
    let d := if st == .retired then retireOff d n else d
    let d := endPortOps d n old st
    let d := if (st == .training && (old == .reef1 || old == .reef2)) && (d.lane (d.port n).lane).port == some n then
        wakeLane d (d.port n).lane
      else d
    let d := if st == .up then d else dropEntries d fun e => e.ownOf n && (e.action == 0x01 || e.action == 0x07)
    reportState d n old

/-! ### Attempts (R89, R90, R137) -/

/-- The settings under which a port starts attempts (R137). -/
def linkOk (c : PortCfg) : Bool :=
  fld c.linkCfg 25 24 != 3 && decide (1 ≤ fld c.linkCfg 15 12) && decide (fld c.linkCfg 15 12 ≤ 3) &&
  decide (fld c.linkCfg 15 12 ≤ fld c.linkCfg 11 8)

def autoStart (c : PortCfg) : Bool := bit c.linkCfg 7

/-- TOP of a PT_LINK_CFG word, taken as GL12 for a GL25 port on Class U cable whose Shroud is off (R170). -/
def effTop (d : Dev) (n : Fin 16) (cfg : W32) : Nat :=
  let c := (d.port n).cfg
  let t := fld cfg 15 12
  if t == 1 && bit c.diagCfg 31 && (!bit d.sys.shrCfg 0 || !bit c.shrPort 7) then 2 else t

/-- The highest standard mode set in a bitmap, or none. -/
def topStd (map : Nat) : LineMode :=
  match [LineMode.t10g, .t5g, .t2g5, .t1g].find? fun m => m.inMap map with
  | some m => m
  | none => .none

/-- FORCE_MODE of a PT_STD_CFG word. -/
def forceMode (std : W32) : LineMode :=
  match lineModeOf (fld std 28 25) with
  | .t5g => .t5g | .t2g5 => .t2g5 | .t1g => .t1g | _ => .t10g

/-- The mode the next attempt tries first (R238). -/
def firstMode (d : Dev) (n : Fin 16) : LineMode :=
  let c := (d.port n).cfg
  if fld c.linkCfg 25 24 == 2 then
    if !bit c.stdCfg 29 then forceMode c.stdCfg
    else match topStd (fld c.linkCfg 23 16) with
      | .none => .t10g
      | m => m
  else lineModeOf (effTop d n c.linkCfg)

/-! ### The coding and rate of a lane (R238, R239) -/

/-- The line mode that sets a port's lane. -/
def laneModeOf (d : Dev) (n : Fin 16) : LineMode :=
  match (d.port n).link.laneMode with
  | .none => firstMode d n
  | m => m

/-- CODING and DIV (R238, R274). -/
def codeOf (m : LineMode) (hostcode : Bool) : BitVec 3 × BitVec 2 :=
  let c : BitVec 3 := if hostcode then 2 else 1
  match m with
  | .none | .gl25 => (c, 0)
  | .gl12 => (c, 1)
  | .gl6 => (c, 2)
  | .t10g => (3, 0)
  | .t5g => (4, 1)
  | .t2g5 => (5, 0)
  | .t1g => (6, 0)

/-- The port whose stream a lane serves: the one it carries, or the one a LANE_SPARE brings it up for. -/
def laneUser (d : Dev) (m : Fin 20) : Option (Fin 16) :=
  match (d.lane m).port, (d.lane m).target with
  | some n, _ => some n
  | none, some h =>
    match findOp d h with
    | some o => match o.cmd with
      | .laneSpare p _ => portOf p
      | _ => none
    | none => none
  | none, none => none

/-- The party-wall lanes run Byham at the lowest rate, an unassigned lane at the highest (R237, R265). -/
def laneCode (d : Dev) (m : Fin 20) : BitVec 3 × BitVec 2 :=
  if 18 ≤ m.val then (1, 2)
  else match laneUser d m with
    | some n => codeOf (laneModeOf d n) (bit (d.lane m).cfg 30)
    | none => (1, 0)

/-- The rate family of a coding (R239). -/
def family (c : BitVec 3) : Nat := if c == 4 then 3 else c.toNat

/-- A lane takes the coding and rate its user needs; its receiver aligns again, after adapting where the family changes. -/
def relane (d : Dev) (m : Fin 20) : Dev :=
  let l := d.lane m
  let c := laneCode d m
  if !bit l.cfg 31 || (l.coding == c.1 && l.div == c.2) then d
  else
    let searching := l.rx == .align || l.rx == .locked
    let d := match l.port with
      | some n => d.modPort n fun p => { p with up := { p.up with
          xoff := p.up.xoff && c.1 == 2, pauses := if c.1 == 2 then p.up.pauses else [], pauseRest := [], lastIdle := false } }
      | none => d
    d.setLane m { l with
      coding := c.1, div := c.2, txPcs := {}, good := 0, bad := 0, hostPort := 0x1F, hostLane := none, sent := 2048, slack := 0, rxBad := false,
      rx := if searching then (if family c.1 == family l.coding then .align else .adapt) else l.rx }

/-- The lane follows the port's line mode. -/
def syncLane (d : Dev) (n : Fin 16) : Dev :=
  let d := d.modPort n fun p => { p with link := { p.link with laneMode := p.link.mode } }
  relane d (d.port n).lane

/-- At the start of any training both ends cancel an armed switch or Reef entry, and the MODE_SWITCH entry goes
(R126). -/
def cancelArmed (d : Dev) (n : Fin 16) : Dev :=
  let d := dropEntries d fun e => e.ownOf n && e.action == 0x07
  d.modPort n fun p => { p with
    line := { p.line with reefAt := none, reefCancel := false, reefStay := false, dsTarget := none, dsSent := 0 },
    oam := { p.oam with live := p.oam.live.filter fun x => x.op.isSome } }

/-- FFE_MAIN, reserved values as the port uses them (R176). -/
def ffeMain (c : PortCfg) : Nat := let m := fld c.rxCfg 15 10; if m ≤ 39 then m else 10

/-- The equalisers and the echo canceller at the start of a full training: all zero, but for the main tap of the FFE, which passes
the sample (R110, R144, R146; DESIGN CHOICE, assumption 161). -/
def freshCoefs (c : PortCfg) : Coefs := ⟨[], (List.range 40).map fun t => if t = ffeMain c then 8192 else 0, [0, 0]⟩

/-- A full training starts every filter from OUT and clears the receiver's counters (R167, R177, R209). -/
def freshRx (p : Port) : Port :=
  { p with
    rx := { p.rx with live := freshCoefs p.cfg, shadow := freshCoefs p.cfg, chain := {}, held := false, reverts := 0, fenceHits := 0,
                      forced := 0, slow := false, margins := [] },
    shr := { p.shr with ne := Vector.replicate 16 {}, fe := Vector.replicate 16 {} },
    rtx := { p.rtx with peak := 0 } }

/-- The modes in which a port may be in TRAINING (R30, R34). -/
def trainMode (d : Dev) : Bool := d.sys.mode == .run || d.sys.mode == .reef

/-- No link attempt starts outside those modes, nor while the pair joins (R109, R608). -/
def mayTrain (d : Dev) : Bool := trainMode d && d.pair.st != .join

/-- A link attempt begins in preparation (R89, R107, R110); while the port's pads are held it does not train (R497). -/
def startAttempt (d : Dev) (n : Fin 16) : Dev :=
  if linkOk (d.port n).cfg && mayTrain d && !bit d.pwr.padPort n.val then
    let m := firstMode d n
    let d := enterSt (cancelArmed d n) n .training
    growLeaves <| d.modPort n fun p => freshRx { p with
      on := true,
      std := { p.std with mode := .none, master := false, eee := false, oam := false },
      shr := { p.shr with syncExcl := false },
      link := { p.link with cfgNow := p.cfg.linkCfg, stdNow := p.cfg.stdCfg, phase := 0, phaseAt := d.dt.dt, fast := false, mode := m, attempt := p.link.attempt + 1, attemptTimer := true,
                            backoff := false, steps := 0, polInv := false, lowMargin := false },
      train := { pcSet := p.train.pcSet } }
  else d

/-- The start rule of a port in DOWN: AUTO_START, or a PORT_UP since the last PORT_DOWN (R90). -/
def startRule (d : Dev) (n : Fin 16) : Dev :=
  let p := d.port n
  if p.link.st == .down && (autoStart p.cfg || p.link.wanted) then startAttempt d n else d

/-- A failed attempt: DOWN with its reason, and back-off (R89, R90). -/
def failAttempt (d : Dev) (n : Fin 16) (reason : BitVec 4) : Dev :=
  let d := d.modPort n fun p => { p with link := { p.link with
    lastFail := reason, fails := satInc p.link.fails, f := p.link.f + 1 } }
  let d := enterSt d n .down
  d.modPort n fun p => { p with link := { p.link with backoff := true } }

/-- The back-off of R90, in ms. -/
def backoffMs (f : Nat) : Nat := if f = 0 then 0 else if f ≤ 7 then 10 * 2 ^ (f - 1) else 1000

/-- Coefficients of the echo canceller in a mode (R144, R217). -/
def ecTaps : LineMode → Nat
  | .gl25 => 9600 | .gl12 => 4800 | .gl6 => 2400 | .t10g => 3600 | .t5g => 1800 | .t2g5 => 900 | _ => 480

/-- The echo profile: 480 bins, each the coefficient of the delay nearest to it (R121). -/
def echoProfile (m : LineMode) (ec : List Int) : List Int :=
  (List.range 480).map fun b => ec.getD ((b * ecTaps m * 2 + 480) / 960) 0

/-- The echo canceller filled from a profile by linear interpolation between neighbouring bins (R121). Beyond the last bin, which
has no right neighbour, its value is held (DESIGN CHOICE, assumption 163). -/
def echoFill (m : LineMode) (profile : List Int) : List Int :=
  let n := ecTaps m
  (List.range n).map fun j =>
    let b := j * 480 / n
    let f := (j * 480 % n : Nat)
    let x := profile.getD b 0
    let y := profile.getD (b + 1) x
    x + (y - x) * (f : Int) / (n : Int)

/-- A stored coefficient: 16 bits, two's complement (R144). -/
def coefBytes (l : List Int) (k : Nat) : List W8 :=
  (List.range k).flatMap fun i => leBytes 2 (BitVec.ofInt 16 (l.getD i 0)).toNat

/-- The 2,048 bytes of a snapshot (R121). -/
def snapBytes (s : Snapshot) : List W8 :=
  let body := [BitVec.ofNat 8 s.mode, BitVec.ofNat 8 (b2n s.polInv + 2 * b2n s.master + 128 * b2n s.valid),
      s.pcSet.setWidth 8, s.ntap.setWidth 8] ++ leBytes 2 s.turn.toNat ++ leBytes 2 s.margin.toNat ++
    leBytes 4 s.path.toNat ++ leBytes 4 0 ++ coefBytes s.ffe 40 ++ coefBytes s.dfe 2 ++ leBytes 4 0 ++
    ((List.range 24).flatMap fun i => leBytes 2 (s.taps.getD i 0).toNat) ++ leBytes 8 0 ++ coefBytes s.echo 480 ++
    List.replicate 924 0
  body ++ leBytes 4 (crc32c body)

def bytesCoefs (b : List W8) (o k : Nat) : List Int :=
  (List.range k).map fun i => (BitVec.ofNat 16 (ofLe ((b.drop (o + 2 * i)).take 2))).toInt

def readSnap (b : List W8) : Snapshot :=
  let f := b.getD 1 0
  { valid := bit f 7, mode := (b.getD 0 0).toNat, polInv := bit f 0, master := bit f 1,
    pcSet := (b.getD 2 0).setWidth 4, ntap := (b.getD 3 0).setWidth 5,
    turn := BitVec.ofNat 16 (ofLe ((b.drop 4).take 2)), margin := BitVec.ofNat 16 (ofLe ((b.drop 6).take 2)),
    path := BitVec.ofNat 24 (ofLe ((b.drop 8).take 3)), ffe := bytesCoefs b 16 40, dfe := bytesCoefs b 96 2,
    taps := (List.range 24).map fun i => BitVec.ofNat 16 (ofLe ((b.drop (104 + 2 * i)).take 2)), echo := bytesCoefs b 160 480 }

/-- The snapshot with VALID cleared: the Cellar has found an uncorrectable error in it (R121, R500). -/
def voidSnap (b : List W8) : List W8 := b.set 1 (setBit (b.getD 1 0) 7 false)

/-- The snapshot, where it is valid for the present mode (R121). -/
def snapFor (p : Port) : Option Snapshot :=
  match p.snap with
  | some b =>
    let s := readSnap b
    if s.valid && s.mode == p.link.mode.code && ofLe (b.drop 2044) == crc32c (b.take 2044) then some s else none
  | none => none

def snapOk (p : Port) : Bool := (snapFor p).isSome

/-- The port with what the snapshot holds, where it is valid: coefficients, polarity, T_CAM, PATH and the precoder set; in a
standard mode the role (R121, R122, R221). -/
def loadSnap (p : Port) : Port :=
  match snapFor p with
  | some s =>
    { p with
      rx := { p.rx with live := ⟨echoFill p.link.mode s.echo, s.ffe, s.dfe⟩ },
      link := { p.link with polInv := s.polInv },
      line := { p.line with turn := s.turn, path := s.path, ntap := s.ntap, taps := s.taps },
      std := if p.link.mode.std then { p.std with mode := p.link.mode, master := s.master } else p.std }
  | none => p

/-- The first START of a fast retrain: training USEQ counts from 0, and START lies at least 16 ahead (R122). -/
def fastStart : Seq := 16

/-- A link partner left asleep in REEF2 is woken before anything else is sent to it: by the tone of a Gletik link, or by the TC10
wake-up pulse of a standard one; the first answer is that the tone has to end first (R135, R230). -/
def callPartner (d : Dev) (n : Fin 16) : Bool × Dev :=
  let m := (d.port n).link.asleep
  let d' := d.modPort n fun p => { p with link := { p.link with asleep := .none } }
  if m.gletik then (true, d'.emit (.wakeTone n wakeTonePeriod))
  else if m.std then (false, d'.emit (.tc10Pulse n))
  else (false, d)

/-- Commands whose copies a training interrupts go out again, three times, when the upstream is operational (R77; DESIGN CHOICE,
assumption 191). -/
def restartCmds (p : Port) : Port :=
  { p with oam := { p.oam with cmds := p.oam.cmds.map fun c => { c with left := 3 } } }

/-- A fast retrain from the snapshot, or a full training from phase 1 without one; in a standard mode, PMA training at the
same mode and role (R122, R221). `tone` first sends the hub's wake tone (R135). The full training takes a new ATTEMPT, so that no
answer to an older beacon is taken for its own (DESIGN CHOICE, assumption 162). -/
def retrain (d : Dev) (n : Fin 16) (tone : Bool) : Dev :=
  if !trainMode d || bit d.pwr.padPort n.val then d
  else
    let d := (enterSt (cancelArmed d n) n .training).modPort n restartCmds
    let d := if (d.port n).rtx.draining then d else syncLane d n
    let p := d.port n
    if p.link.mode.std then
      let d := d.modPort n fun p => loadSnap { p with
        on := true,
        link := { p.link with phase := 3, phaseAt := d.dt.dt },
        train := { pcSet := p.train.pcSet, pmaRun := true, again := true } }
      d.emit (.pmaTraining n p.link.mode (d.port n).std.master)
    else if snapOk p then
      d.modPort n fun p => loadSnap { p with
        on := true,
        link := { p.link with phase := 2, phaseAt := d.dt.dt, fast := true },
        train := { pcSet := p.train.pcSet, start := if tone then none else some fastStart, toneOn := tone } }
    else
      d.modPort n fun p => freshRx { p with
        on := true,
        link := { p.link with phase := 1, phaseAt := d.dt.dt, fast := false, attempt := p.link.attempt + 1, attemptTimer := !tone, steps := 0 },
        train := { pcSet := p.train.pcSet, toneOn := tone } }

/-- A port that had its link before the device left RUN takes it up again: a fast retrain, which out of DOWN is an attempt under the
registers as they now stand (R34, R89, R137). Its link partner, left asleep, is woken first (R135). -/
def resumeLink (d : Dev) (n : Fin 16) : Dev :=
  if linkOk (d.port n).cfg && trainMode d && !bit d.pwr.padPort n.val then
    let c := callPartner d n
    retrain (c.2.modPort n fun p => { p with link := { p.link with cfgNow := p.cfg.linkCfg, stdNow := p.cfg.stdCfg } }) n c.1
  else d

/-- The Cellar snapshot of a port (R121, R220). -/
def saveSnapshot (p : Port) : Port :=
  { p with snap := some <| snapBytes {
      valid := true, mode := p.link.mode.code, polInv := p.link.polInv, master := p.std.master,
      pcSet := p.train.pcSet, ntap := if p.link.mode.std then 0 else p.line.ntap,
      turn := p.line.turn, margin := p.rx.anchorMargin, path := p.line.path,
      ffe := p.rx.live.ffe, dfe := p.rx.live.dfe, taps := if p.link.mode.std then [] else p.line.taps,
      echo := echoProfile p.link.mode p.rx.live.ec } }

/-! ### Upstream commands (R76, R77) -/

/-- A command that the hub repeats in three upstream service codewords. -/
def sendCmd (p : Port) (code : BitVec 4) (id : Option W8) (data : BitVec 112) : Port :=
  let i := id.getD (p.oam.lastId + 1)
  { p with oam := { p.oam with
      cmds := p.oam.cmds ++ [{ code := code, id := i, data := data, left := 3 }],
      lastId := if id.isSome then p.oam.lastId else i } }

/-- FRAME and TIME of a raster-lock command (R76). -/
def rlcData (frame : W32) (time : Nat) : BitVec 112 := BitVec.ofNat 112 (frame.toNat * 2 ^ 80 + time % 2 ^ 80)

/-- A FOLLOW, also while it confirms or holds (R612, R616). -/
def followRole (d : Dev) : Bool :=
  match d.pair.st with
  | .follow | .confirm | .hold => bit d.pair.cfg 0
  | _ => false

/-- ROLE as the upstream shows it (R72, R608, R610). -/
def roleCode (d : Dev) : BitVec 2 :=
  if !bit d.pair.cfg 0 then 0
  else match d.pair.st with
    | .lead => 1
    | .follow | .confirm | .hold => 2
    | _ => 0

def devId (d : Dev) : BitVec 9 := BitVec.ofNat 9 d.hal.dom.toNat

/-- A raster-lock command, which a FOLLOW suppresses (R614). -/
def sendRlc (d : Dev) (p : Port) (code : BitVec 4) (data : BitVec 112) : Port :=
  if followRole d then p else sendCmd p code none data

/-- The camera's own line period: LP by the present DT rate adjustment, in ppb (R298). -/
def cameraLp (d : Dev) : Nat := ((d.raster.lp.toNat : Int) * 1000000000 / (1000000000 + d.dt.adj)).toNat

def sendSetLine (d : Dev) (n : Fin 16) : Dev :=
  d.modPort n fun p =>
    let p := sendRlc d p 3 (rlcData (BitVec.ofNat 32 d.raster.lines.toNat) (cameraLp d))
    { p with raster := { p.raster with lpSent := d.raster.lp, lastCmd := some (d.raster.posAt d.t16).frame } }

/-- Step 1 of R297: SET_LINE, then SET_FRAME for the present master frame + 2. -/
def sendSetFrame (d : Dev) (n : Fin 16) : Dev :=
  let k := d.rpos.frame + 2
  let d := sendSetLine d n
  d.modPort n fun p =>
    let p := sendRlc d p 1 (rlcData k (d.raster.frameStart d.t16 k).toNat)
    { p with raster := { p.raster with
        k := k, sets := if followRole d then p.raster.sets else satInc p.raster.sets, tries := p.raster.tries + 1, deltas := [], good := 0, bad := 0,
        lastCmd := some d.rpos.frame } }

/-- Steering begins (R297 step 1); while the master raster is not available the steps pause. -/
def startSteer (d : Dev) (n : Fin 16) : Dev :=
  let p := d.port n
  if p.link.mode.gletik && bit p.cfg.rasterCfg 31 then
    let d := d.modPort n fun p => { p with raster := { p.raster with
      st := .steering, tries := 0, learned := false, retry := false, deltas := [], good := 0, bad := 0,
      startDue := !d.raster.avail } }
    if d.raster.avail then sendSetFrame d n else d
  else d

/-! ### Windows (R100, R187, R199, R208) -/

/-- W in units of 4 us, reserved values read as 16 (R208). -/
def cfgW (c : PortCfg) : Nat :=
  let w := fld c.rtxCfg 29 24
  if 4 ≤ w ∧ w ≤ 32 then w else 16

def cfgReserve (c : PortCfg) : Nat :=
  let r := fld c.rtxCfg 21 16
  if r ≤ 40 then r else 12

/-- The payload rate of a mode as a share of 25 Gb/s (R45). -/
def rateDiv : LineMode → Nat
  | .gl12 => 2
  | .gl6 => 4
  | _ => 1

/-- The window a partner's buffer of RTXD units allows: RTXD x (25 Gb/s / rate) less 24 us (R100). -/
def windowFor (c : PortCfg) (rtxd : Nat) (m : LineMode) : Nat × Bool :=
  let room := rtxd * rateDiv m
  if cfgW c + 6 ≤ room then (cfgW c, false)
  else if room < 10 then (0, true)
  else (room - 6, true)

/-- W_ACT at entry to UP (R187, R199). Where R100 turns retransmission off, REDUCED reads 0 (DESIGN CHOICE, assumption 192). -/
def windowAtUp (p : Port) : Nat × Bool :=
  if !p.link.mode.gletik || !bit p.link.cfgNow 6 then (0, false)
  else
    let w := windowFor p.cfg (fld p.link.partner 23 16) p.link.mode
    if w.1 == 0 then (0, false) else w

/-- Entry to UP (R115, R149, R199). -/
def enterUp (d : Dev) (n : Fin 16) : Dev :=
  let w := windowAtUp (d.port n)
  let d := d.modPort n fun p => { p with
    link := { p.link with marginAtUp := p.link.marginCur, fails := 0, f := 0 },
    rtx := { p.rtx with
      wAct := w.1, resAct := cfgReserve p.cfg, reduced := w.2, winUp := false, winRtx := false, prevRtx := false },
    rx := { p.rx with anchor := p.rx.live, anchorMargin := p.link.marginCur, renewAt := d.dt.dt, revertAt := [],
                      copyMargin := p.link.marginCur.toInt, held := false, shadow := p.rx.live },
    oam := { p.oam with healthSeen := false },
    shr := { p.shr with
      ne := vmap p.shr.ne fun f => { f with a := f.c },
      fe := vmap p.shr.fe fun f => { f with a := f.c } } }
  let d := syncLane (enterSt d n .up) n
  let d := d.modPort n saveSnapshot
  let d := startSteer d n
  adaptEntry d n

end Sys2Proof.Machine
end

