-- ==== Sys2Proof/Machine/Flags.lean ====
section
/-! DEFINITION. The fault collector: sources and levels, occurrences, acknowledgement, the reactions, the pin FAULT_N, the
changes of device mode they cause, and what the hardware drives after every command. -/
namespace Sys2Proof.Machine

/-! ### Sources (R513, R514) -/

inductive Scope where
  | device (block : Fin 9)
  | port (n : Fin 16)
  | lane (m : Fin 20)
  deriving DecidableEq, Repr

def srcScope (src : BitVec 10) : Option Scope :=
  let i := (src.toNat / 16) % 16
  match src.toNat / 256 with
  | 0 => if h : i < 9 then some (.device ⟨i, h⟩) else none
  | 1 => if h : i < 16 then some (.port ⟨i, h⟩) else none
  | 2 => if h : i < 20 then some (.lane ⟨i, h⟩) else none
  | _ => if h : i + 16 < 20 then some (.lane ⟨i + 16, h⟩) else none

def srcBit (src : BitVec 10) : Nat := src.toNat % 16

def srcOf (s : Scope) (k : Nat) : BitVec 10 :=
  match s with
  | .device b => BitVec.ofNat 10 (b.val * 16 + k)
  | .port n => BitVec.ofNat 10 (0x100 + n.val * 16 + k)
  | .lane m => if m.val < 16 then BitVec.ofNat 10 (0x200 + m.val * 16 + k) else BitVec.ofNat 10 (0x300 + (m.val - 16) * 16 + k)

/-- Default level and cap of the sources of one device block, by SRC. -/
def devSources : Nat → List (Nat × Nat)
  | 0 => [(1, 2)]
  | 1 => [(1, 1), (1, 1), (1, 1), (1, 2), (1, 2), (1, 1), (0, 0), (1, 2)]
  | 2 => [(1, 1), (0, 0), (1, 1), (1, 1), (2, 3)]
  | 3 => [(1, 1), (0, 0)]
  | 4 => [(0, 1), (1, 1), (0, 0), (1, 3)]
  | 5 => [(0, 0)]
  | 6 => [(1, 2)]
  | 7 => [(1, 1), (0, 0), (1, 1)]
  | 8 => [(1, 3)]
  | _ => []

def portSources : List (Nat × Nat) :=
  [(0, 0), (0, 1), (0, 0), (1, 1), (1, 1), (1, 1), (1, 1), (0, 0), (0, 1), (2, 2), (1, 2), (0, 2), (0, 0), (1, 2),
   (0, 1), (1, 2)]

def laneSources : List (Nat × Nat) := [(1, 1), (1, 1), (1, 1), (1, 1), (0, 1), (0, 1), (0, 1), (1, 1)]

/-- Default level and cap of a source; none for a reserved source ID. -/
def srcLevels (src : BitVec 10) : Option (Nat × Nat) :=
  match srcScope src with
  | some (.device b) => (devSources b.val)[srcBit src]?
  | some (.port _) => portSources[srcBit src]?
  | some (.lane _) => laneSources[srcBit src]?
  | none => none

def srcDefined (src : BitVec 10) : Bool := (srcLevels src).isSome

/-- The sources a group defines, as a mask. -/
def groupMask : Scope → W16
  | .device b => BitVec.ofNat 16 (2 ^ (devSources b.val).length - 1)
  | .port _ => 0xFFFF
  | .lane _ => 0x00FF

def group (d : Dev) : Scope → FltGroup
  | .device b => d.flt.dev[b.val]
  | .port n => d.flt.port[n.val]
  | .lane m => d.flt.lane[m.val]

def setGroup (d : Dev) (s : Scope) (g : FltGroup) : Dev :=
  match s with
  | .device b => { d with flt := { d.flt with dev := d.flt.dev.set b.val g b.isLt } }
  | .port n => { d with flt := { d.flt with port := d.flt.port.set n.val g n.isLt } }
  | .lane m => { d with flt := { d.flt with lane := d.flt.lane.set m.val g m.isLt } }

/-- FLT_LIVE: the hardware condition, or the force bit (R516, R524). -/
def FltGroup.live (g : FltGroup) : W16 := g.hwLive ||| g.force

def FltGroup.level (g : FltGroup) (k : Nat) : Nat := (g.lvl.toNat >>> (2 * k)) % 4

def FltGroup.setLevel (g : FltGroup) (k v : Nat) : FltGroup := { g with lvl := setFld g.lvl (2 * k + 1) (2 * k) v }

/-- A source of the group raised at a level or above. -/
def FltGroup.raisedAt (g : FltGroup) (lvl : Nat) : Bool :=
  g.raised != 0 && (List.range 16).any fun k => bit g.raised k && decide (lvl ≤ g.level k)

def isRaised (d : Dev) (src : BitVec 10) : Bool :=
  match srcScope src with
  | some s => bit (group d s).raised (srcBit src)
  | none => false

def isLive (d : Dev) (src : BitVec 10) : Bool :=
  match srcScope src with
  | some s => bit (group d s).live (srcBit src)
  | none => false

/-- Source IDs by name. -/
def srcPort (n : Fin 16) (k : Nat) : BitVec 10 := srcOf (.port n) k
def srcLane (m : Fin 20) (k : Nat) : BitVec 10 := srcOf (.lane m) k

/-- A device-scope source raised at FENCE (R521). -/
def devFenced (d : Dev) : Bool := vany d.flt.dev fun g => g.raisedAt 2

def portFenced (d : Dev) (n : Fin 16) : Bool := d.flt.port[n.val].raisedAt 2

/-! ### Device modes (R31–R34) -/

/-- A mode entered, with the port states it finds recorded (R34); the ports move by `settle`. -/
def enterMode (d : Dev) (m : Mode) : Dev :=
  { d with sys := { d.sys with
    mode := m, portsAt := vmap d.ports fun p => p.link.st, gateOvr := d.sys.gateOvr + modeOverrides d m } }

/-! ### The operating point of CORE (R483–R485) -/

/-- VSET of a new part: what the OTP gives, which it guarantees to lie from 0.72 V to 0.75 V, in units of 5 mV (R483). -/
def partVset : W8 := if Config.vsetOtp < 144 then 144 else if 150 < Config.vsetOtp then 150 else Config.vsetOtp

/-- V_MIN of a point, in units of 5 mV (R483). -/
def vMin (a : AvsSt) (f : BitVec 2) : Nat := if f == 0 then a.vset.toNat else if f == 1 then 140 else 136

/-- The slower of two points: the higher code. -/
def slower (f g : BitVec 2) : BitVec 2 := if f < g then g else f

/-- The sequencer starts a change (R484): a lower frequency at once, then the voltage; a higher one when the voltage is
reached. -/
def startPoint (d : Dev) (f : BitVec 2) (v : W8) : Dev :=
  let a := d.avs
  if v == a.volt then { d with avs := { a with freq := f, target := none, busy := false } }
  else
    { d with avs := { a with freq := slower a.freq f, volt := v, busy := true, target := some (v, f) } }.emit (.avs v)

/-- The device's own change of point in and out of REEF, which a host's control rules out (R485, R488, R489). -/
def devicePoint (d : Dev) (f : BitVec 2) : Dev :=
  if d.avs.cfgHost then d else startPoint d f (BitVec.ofNat 8 (vMin d.avs f))

/-! ### SAFE, and the entry to RUN -/

/-- SAFE, from the modes of R31 that a trip or a device FENCE ends. Out of REEF the sequencer raises CORE to F0 (R484). -/
def enterSafe (d : Dev) : Dev :=
  match d.sys.mode with
  | .run | .maintain => { enterMode d .safe with sys := { (enterMode d .safe).sys with safeToHold := false } }
  | .reef => devicePoint { enterMode d .safe with sys := { (enterMode d .safe).sys with safeToHold := false } } 0
  | .hold => { enterMode d .safe with sys := { (enterMode d .safe).sys with safeToHold := true } }
  | _ => d

/-- The configured start rule: a port in DOWN with AUTO_START (R34, R451). -/
def autoRule (d : Dev) (n : Fin 16) : Dev :=
  if (d.port n).link.st == .down && autoStart (d.port n).cfg then startAttempt d n else d

/-- JOIN begins (R608). -/
def startJoin (d : Dev) (wake : Bool) : Dev :=
  { d with pair := { d.pair with st := .join, joinLead := none, joinWake := wake, good := 0 } }

/-- RUN is entered: the ports start by a rule, after the JOIN of the first entry where the pair is enabled (R109, R608). -/
def enterRun (d : Dev) (wake : Bool) (start : Dev → Dev) : Dev :=
  let first := d.sys.firstRun
  let d := { d with sys := { d.sys with mode := .run, firstRun := false, gateOvr := d.sys.gateOvr + modeOverrides d .run } }
  if first && bit d.pair.cfg 0 then startJoin d wake else start d

/-- Ports follow the resume rules when RUN resumes from SAFE: a fast retrain for those that were UP or in Reef, the configured
start rule for the others (R34). -/
def resumePorts (d : Dev) : Dev :=
  let at_ := d.sys.portsAt
  d.eachPort fun d n =>
    if (d.port n).link.st == .down then
      match at_[n.val] with
      | .up | .reef1 | .reef2 => resumeLink d n
      | _ => autoRule d n
    else d

/-- SAFE ends when neither a trip nor a device FENCE holds it (R31, R521). A HALT holds it for good (R32). -/
def leaveSafe (d : Dev) : Dev :=
  if d.sys.mode == .safe && !d.sys.safeByTrip && !d.sys.safeByFence && !d.flt.halt.halted then
    if d.sys.safeToHold then { d with sys := { d.sys with mode := .hold } }
    else enterRun d false resumePorts
  else d

/-! ### Occurrences (R515–R519, R526, R527) -/

/-- The sections a dump holds, in the order of R361. -/
def dumpSections : List Nat := [1, 2, 3, 4, 5] ++ (List.range 16).map fun n => 0x10 + n

def firstWord (f : Option Occ) (count : W8) : W32 :=
  match f with
  | none => 0
  | some o => atB 31 true ||| atB 30 o.forced ||| at_ 28 o.level.toNat ||| at_ 16 o.src.toNat ||| at_ 8 count.toNat

/-- The bytes of a section: their length and content are not in the rules (assumption 2). -/
def sectionBytes (d : Dev) (type : Nat) : List W8 :=
  (List.range (Config.dumpLength d.free type)).map (Config.freeByte (d.free + type))

/-- The sections that fit into what a region leaves, in order; those that do not are omitted (R361). -/
def fitSections : Nat → List (Nat × List W8) → List (Nat × List W8)
  | _, [] => []
  | room, x :: xs =>
    if 16 + x.2.length ≤ room then x :: fitSections (room - 16 - x.2.length) xs else fitSections room xs

/-- The section table, with the offsets from MAGIC (R361). -/
def sectionTable : Nat → List (Nat × List W8) → List W8
  | _, [] => []
  | o, x :: xs =>
    leBytes 4 x.1 ++ leBytes 4 o ++ leBytes 4 x.2.length ++ leBytes 4 (crc32c x.2) ++ sectionTable (o + x.2.length) xs

/-- The 64 bytes of the header (R360). -/
def dumpHeader (d : Dev) (len count : Nat) (truncated summary rom : Bool) : List W8 :=
  let h := d.flt.halt
  [0x5A, 0x56, 0x44, 0x50] ++ leBytes 2 1 ++ leBytes 2 64 ++ leBytes 4 len ++ leBytes 2 count ++
  leBytes 2 h.cause.toNat ++ leBytes 8 h.stamp.dt.toNat ++ leBytes 2 h.stamp.frac.toNat ++
  [BitVec.ofNat 8 (b2n h.stamp.coarse + 2 * b2n truncated + 4 * b2n summary + 8 * b2n rom), BitVec.ofNat 8 h.mode.code] ++
  leBytes 4 h.pos.frame.toNat ++ leBytes 2 h.pos.line.toNat ++ leBytes 2 h.pos.phase.toNat ++
  leBytes 4 d.boot.mgrVer.toNat ++ leBytes 2 (devId d).toNat ++ leBytes 2 0 ++
  leBytes 4 (firstWord d.flt.first d.flt.firstCount).toNat ++ List.replicate 16 0

/-- The dump, with its commit word last, in a region of a size, and whether sections were omitted for lack of space (R360, R361). -/
def dumpBytes (d : Dev) (size : Nat) (rom summary : Bool) : List W8 × Bool :=
  let all := (if rom then [2, 3, 4] else dumpSections).map fun t => (t, sectionBytes d t)
  let secs := fitSections (size - 68) all
  let truncated := rom || decide (secs.length < all.length)
  let data := secs.flatMap (·.2)
  let first := 64 + 16 * secs.length
  let body := dumpHeader d (first + data.length + 4) secs.length truncated summary rom ++ sectionTable first secs ++ data
  (body ++ leBytes 4 (crc32c body), truncated)

/-- The 256 KiB of flash for the summary (R530). -/
def summarySize : Nat := 0x40000

/-- The dump of R530, steps 2 and 3, by the manager, or by the boot ROM routine of step 4. -/
def writeDump (d : Dev) (rom : Bool) : Dev :=
  let h := d.flt.halt
  let go (toFlash : Bool) (addr : W64) (size : Nat) : Dev :=
    let b := dumpBytes d size rom toFlash
    { d with
      free := d.free + 32,
      flt := { d.flt with halt :=
        if toFlash then { h with truncated := b.2, rom := rom, flashing := some b.1 }
        else { h with state := 2, truncated := b.2, rom := rom, pending := false } },
      out := .dump toFlash addr b.1 :: d.out }
  match h.region with
  | some (addr, size) => go false addr size.toNat
  | none =>
    if bit d.flt.cfg 2 then go true 0x0038_0000 summarySize
    else { d with flt := { d.flt with halt := { h with pending := false } } }

/-- A HALT (R530): CAUSE recorded, and the dump written when the manager is there to write it; in BOOT the dump waits for
the end of boot (R32). A second HALT during the steps changes nothing else. -/
def halt (d : Dev) (src : BitVec 10) : Dev :=
  if d.flt.halt.pending || d.flt.halt.halted then d
  else
    { d with flt := { d.flt with halt := { d.flt.halt with
      state := 1, truncated := false, rom := false, cause := src, pending := true, halted := true,
      stamp := d.stamp, pos := d.rpos, mode := d.sys.mode } } }

/-- A port is fenced, in a DT tick that a PORT_ISOLATE of the same tick finds noted (R37). -/
def fencePort (d : Dev) (n : Fin 16) : Dev :=
  enterSt (d.modPort n fun p => { p with link := { p.link with fenceTick := if d.dt.running then some d.dt.dt else none } }) n .fenced

/-- The reactions of a level (R518). A device FENCE in BOOT or SAFE changes no mode (R32); the mode and the ports move in
the same command. A port-scope FENCE takes a port of SAFE, HOLD or MAINTAIN from DOWN to FENCED, which R36 gives for every state
but RETIRED and R34 shows there, although R34 also says that no port leaves DOWN in these modes (DESIGN CHOICE,
assumption 164). -/
def react (d : Dev) (s : Scope) (src : BitVec 10) (lvl : Nat) : Dev :=
  match s with
  | .port n =>
    if 2 ≤ lvl ∧ (d.port n).link.st ≠ .retired then fencePort d n else d
  | .lane _ => d
  | .device _ =>
    if lvl < 2 then d
    else
      let was := d.sys.mode
      let d := if lvl = 3 then halt d src else d
      let d := match was with
        | .off | .deep | .boot => d
        | .safe => { d with sys := { d.sys with safeByFence := true } }
        | _ => let d := enterSafe d
               { d with sys := { d.sys with safeByFence := true } }
      if lvl = 3 ∧ was ≠ .boot ∧ d.flt.halt.pending ∧ d.sys.mgrUp then writeDump d false else d

/-- The level that an occurrence takes (R519, R525). -/
def newLevel (g : FltGroup) (k lvl cap limit : Nat) : Nat :=
  if bit g.raised k then max (g.level k) (min limit (max lvl (max (g.level k) (min cap (g.level k + 1)))))
  else min limit lvl

/-- An occurrence of the present tick of DT. -/
def sameTick (d : Dev) (x : Occ) : Bool := d.dt.running && x.stamp == d.stamp

/-- The order in which the occurrences of one tick are entered: descending level, then ascending ID (R522). -/
def ranksBefore (a b : Occ) : Bool :=
  a.src != b.src && (decide (b.level < a.level) || (a.level == b.level && decide (a.src.toNat < b.src.toNat)))

/-- The place of an occurrence among those already entered, newest first (R522). -/
def placeOcc (d : Dev) (o : Occ) : List Occ → List Occ
  | [] => [o]
  | x :: rest => if sameTick d x && ranksBefore o x then x :: placeOcc d o rest else o :: x :: rest

/-- A hardware occurrence and a forced one of the same source in one tick (R522). -/
def twinOcc (d : Dev) (src : BitVec 10) (forced : Bool) : Option Occ :=
  d.flt.hist.find? fun x => sameTick d x && x.src == src && x.forced != forced

/-- The second of the two counts with the first, at the higher of their levels; their one entry shows FORCED (DESIGN CHOICE,
assumption 184). -/
def joinOcc (d : Dev) (s : Scope) (src : BitVec 10) (lvl limit : Nat) (x : Occ) : Dev :=
  let k := srcBit src
  let g := group d s
  let cur := if bit g.raised k then g.level k else 0
  let new := max cur (min limit lvl)
  let esc := x.escalated || (x.again && decide (cur < new))
  let fix := fun (y : Occ) =>
    if sameTick d y && y.src == src then { y with level := BitVec.ofNat 2 new, forced := true, escalated := esc } else y
  let d := setGroup d s ({ g with lat := setBit g.lat k true, raised := setBit g.raised k true }.setLevel k new)
  let d := { d with flt := { d.flt with
    hist := d.flt.hist.map fix, queue := d.flt.queue.map fix, first := d.flt.first.map fix } }
  if cur < new then react d s src new else d

/-- One occurrence of a source at a level: latched, raised, escalated when it was raised before, entered in the history,
the queue and FLT_FIRST, and its reactions taken (R516–R519, R526, R527). `limit` bounds the level. -/
def enterOcc (d : Dev) (s : Scope) (src : BitVec 10) (lvl cap limit : Nat) (forced : Bool) : Dev :=
  let k := srcBit src
  let g := group d s
  let was := bit g.raised k
  let cur := g.level k
  let new := newLevel g k lvl cap limit
  let esc := was && decide (cur < new)
  let o : Occ := { stamp := d.stamp, pos := d.rpos, src := src, level := BitVec.ofNat 2 new, forced := forced, escalated := esc,
                   again := was }
  let d := setGroup d s ({ g with lat := setBit g.lat k true, raised := setBit g.raised k true }.setLevel k new)
  let room := decide (d.flt.queue.length < 64)
  let d := { d with flt := { d.flt with
    total := satInc d.flt.total,
    hist := (placeOcc d o d.flt.hist).take 16,
    queue := if room then (placeOcc d o d.flt.queue.reverse).reverse else d.flt.queue,
    evLost := if room then d.flt.evLost else satInc d.flt.evLost,
    first := match d.flt.first with
      | none => some o
      | some x => if sameTick d x && ranksBefore o x then some o else some x,
    firstCount := if d.flt.first.isSome then satInc d.flt.firstCount else 0 } }
  react d s src new

/-- An occurrence, or the second of two that count as one (R522). -/
def occurAt (d : Dev) (s : Scope) (src : BitVec 10) (lvl cap limit : Nat) (forced : Bool) : Dev :=
  match twinOcc d src forced with
  | some x => joinOcc d s src lvl limit x
  | none => enterOcc d s src lvl cap limit forced

/-- The highest level a forced occurrence can take in a scope (R525). -/
def scopeLimit : Scope → Nat
  | .device _ => 3
  | .port _ => 2
  | .lane _ => 1

/-- An occurrence at a given level, of a source that is defined. -/
def occur (d : Dev) (src : BitVec 10) (lvl : Nat) : Dev :=
  match srcScope src, srcLevels src with
  | some s, some (_, cap) => occurAt d s src lvl cap (scopeLimit s) false
  | _, _ => d

/-- A source whose condition is one moment occurs, unless it is live already (R515). -/
def moment (d : Dev) (src : BitVec 10) : Dev :=
  match srcLevels src with
  | some (dflt, _) => if isLive d src then d else occur d src dflt
  | none => d

/-- The condition of a source starts or ends (R515, R516). -/
def setLive (d : Dev) (src : BitVec 10) (on : Bool) : Dev :=
  match srcScope src, srcLevels src with
  | some s, some (dflt, _) =>
    let was := isLive d src
    let g := group d s
    let d := setGroup d s { g with hwLive := setBit g.hwLive (srcBit src) on }
    if on && !was then occur d src dflt else d
  | _, _ => d

/-- FAULT_FORCE (R525): an occurrence in its own right, at LEVEL or the escalated level. -/
def forceOccur (d : Dev) (src : BitVec 10) (lvl : Nat) : Dev :=
  match srcScope src, srcLevels src with
  | some s, some (_, cap) => occurAt d s src lvl cap (scopeLimit s) true
  | _, _ => d

/-- What FAULT_FORCE answers: the effective level reached, and whether the occurrence escalated (R525). -/
def forceResult (d : Dev) (s : Scope) (src : BitVec 10) (lvl cap : Nat) : Nat × Bool :=
  let g := group d s
  let cur := if bit g.raised (srcBit src) then g.level (srcBit src) else 0
  match twinOcc d src true with
  | some x =>
    let new := max cur (min (scopeLimit s) lvl)
    (new, x.escalated || (x.again && decide (cur < new)))
  | none =>
    let new := newLevel g (srcBit src) lvl cap (scopeLimit s)
    (new, bit g.raised (srcBit src) && decide (cur < new))

/-! ### Acknowledgement (R520, R521) -/

/-- The CFG_PARITY source of a register, by the scope of its offset (R389). -/
def paritySrc (o : Nat) : BitVec 10 :=
  let portAt (base step : Nat) : BitVec 10 := 0x10A + BitVec.ofNat 10 ((o - base) / step * 16)
  let laneAt (base step : Nat) : BitVec 10 :=
    let m := (o - base) / step
    if m < 16 then BitVec.ofNat 10 (0x207 + m * 16) else BitVec.ofNat 10 (0x307 + (m - 16) * 16)
  if 0x100000 ≤ o ∧ o < 0x200000 then portAt 0x100000 0x10000
  else if 0x200000 ≤ o ∧ o < 0x250000 then laneAt 0x200000 0x4000
  else if 0x300100 ≤ o ∧ o < 0x300200 then portAt 0x300100 0x10
  else if 0x301000 ≤ o ∧ o < 0x301400 then portAt 0x301000 0x40
  else if 0x20100 ≤ o ∧ o < 0x20200 then portAt 0x20100 0x10
  else if 0x21000 ≤ o ∧ o < 0x21400 then portAt 0x21000 0x40
  else if 0x8400 ≤ o ∧ o < 0x8600 then portAt 0x8400 0x20
  else if 0x8800 ≤ o ∧ o < 0x8A80 then laneAt 0x8800 0x20
  else 0

/-- An acknowledgement takes effect on a source that is raised and not live. -/
def ackable (d : Dev) (src : BitVec 10) : Bool := isRaised d src && !isLive d src

def clearRaised (d : Dev) (src : BitVec 10) : Dev :=
  match srcScope src with
  | some s =>
    let g := group d s
    let d := setGroup d s ({ g with raised := setBit g.raised (srcBit src) false }.setLevel (srcBit src) 0)
    let d := match d.flt.first with
      | some o => if o.src == src then { d with flt := { d.flt with first := none, firstCount := 0 } } else d
      | none => d
    if src == paritySrc d.acc.parAddr.toNat then { d with acc := { d.acc with parFrozen := false } } else d
  | none => d

/-- A FENCED port with no source raised at FENCE enters DOWN, without back-off, and starts at once under its start rule
(R36, R90, R521). -/
def unfence (d : Dev) (n : Fin 16) : Dev :=
  if (d.port n).link.st == .fenced && !portFenced d n then
    let d := d.modPort n fun p => { p with link := { p.link with f := 0 } }
    startRule (enterSt d n .down) n
  else d

/-- A device in SAFE by device FENCE, with no device source raised at FENCE (R521). -/
def unfenceDevice (d : Dev) : Dev :=
  if d.sys.mode == .safe && d.sys.safeByFence && !devFenced d && !d.flt.halt.halted then
    leaveSafe { d with sys := { d.sys with safeByFence := false } }
  else d

def ackSource (d : Dev) (src : BitVec 10) : Dev :=
  if ackable d src then
    let d := clearRaised d src
    match srcScope src with
    | some (.port n) => unfence d n
    | some (.device _) => unfenceDevice d
    | _ => d
  else d

/-- Every source ID. -/
def allSources : List (BitVec 10) := ((List.range 1024).map (BitVec.ofNat 10)).filter srcDefined

def ackCount (d : Dev) (srcs : List (BitVec 10)) : Nat := (srcs.filter (ackable d)).length

def ackAll (d : Dev) : Dev := allSources.foldl ackSource d

/-! ### Masters (R13, R380, R387) -/

/-- A master that passes the P check. -/
def passesP (d : Dev) : Master → Bool
  | .mgr | .pf0 => true
  | .pf1 => false
  | .sb => d.boot.strap.sbSecure

/-- A master that reaches the whole set-up space. -/
def reachesAll : Master → Bool
  | .mgr | .pf0 => true
  | .pf1 | .sb => false

/-- The first error since GCTL_ERR was read is recorded with its offset and master (R387). -/
def noteError (a : AccSt) (m : Master) (offset : Nat) : AccSt :=
  if a.rdOff || a.wrOff || a.partialWr then a
  else { a with errMaster := BitVec.ofNat 3 m.code, errAddr := BitVec.ofNat 32 offset }

/-- The error response of R387. -/
def accessError (d : Dev) (m : Master) (offset : Nat) (write : Bool) : Dev :=
  let a := noteError d.acc m offset
  match m with
  | .pf0 | .pf1 =>
    if write then { d with acc := { a with wrOff := true } }
    else
      let d := { d with acc := { a with rdOff := true } }
      (d.emit (.aer (if m == .pf1 then .pf1 else .pf0) .completerAbort)).emit (.errorResponse m)
  | .mgr | .sb => { d with acc := a }.emit (.errorResponse m)

/-! ### What the hardware drives after every command -/

/-- The modes in which every port is DOWN, FENCED or RETIRED (R34); OFF likewise, where nothing is powered. -/
def forcesDown : Mode → Bool
  | .off | .boot | .hold | .safe | .maintain => true
  | .run | .reef | .deep => false

def portResting (st : PortSt) : Bool :=
  match st with
  | .down | .fenced | .retired => true
  | _ => false

def restPort (d : Dev) (n : Fin 16) : Dev := if portResting (d.port n).link.st then d else enterSt d n .down

def settlePorts (d : Dev) : Dev := if forcesDown d.sys.mode then d.eachPort restPort else d

/-- The lowest raised level that asserts FAULT_N (R535). -/
def fnLevel (d : Dev) : Nat := fld d.flt.cfg 1 0

def anyRaisedAt (f : FltSt) (lvl : Nat) : Bool :=
  (vany f.dev fun g => g.raisedAt lvl) || (vany f.port fun g => g.raisedAt lvl) || (vany f.lane fun g => g.raisedAt lvl)

/-- The level of the pin FAULT_N, which is asserted low (R30, R523). -/
def faultNLevel (d : Dev) : Bool :=
  match d.sys.mode with
  | .off | .boot | .hold | .safe => false
  | .maintain => true
  | .run | .reef => !anyRaisedAt d.flt (fnLevel d)
  | .deep => d.pins.faultN

/-- Modes in which FSYNC_OUT follows Halyard (R30, R294). -/
def fsyncMode : Mode → Bool
  | .run | .reef => true
  | _ => false

/-- An enabled condition is pending for the sideband (R404). -/
def sbPending (b : Mbx) : Bool :=
  (bit b.pend 0 && bit b.ie 2) || (bit b.pend 1 && bit b.ie 5) || (bit b.pend 2 && bit b.ie 8)

/-- The pins at the levels of their rules; a pulse on FSYNC_OUT ends where no raster gives it. -/
def setPins (d : Dev) : Dev :=
  let high := d.hal.fsyncHigh && fsyncMode d.sys.mode && d.raster.set && decide (fld d.hal.fsyncCfg 15 14 < 2)
  { d with
    pins := { d.pins with
      faultN := faultNLevel d, fsyncOut := high, sbIrqN := !(sbPending d.mbxS || sbPending d.mbxN) },
    hal := { d.hal with fsyncHigh := high } }

/-- A change of FAULT_N sends its message to PF0 (R523, R369). -/
def settlePins (d : Dev) : Dev :=
  let e := setPins d
  if e.pins.faultN != d.pins.faultN && d.sys.mode != .off then msix e .pf0 18 else e

/-- The rules that hold after every command: the ports of the modes of R34, and the pins. -/
def settle (d : Dev) : Dev := settlePins (settlePorts d)

/-- A command's effect on the block; the queue keeps what waits. -/
def onDev (s : State) (f : Dev → Dev) : Host.Outcome State Fault Refusal :=
  .next { s with dev := settle (f s.dev) }

/-- In OFF nothing is powered, and in DEEP only domain AON (R30), until a wake has restored CORE (step 4 of R494): no other
command finds the block there. -/
def powered (d : Dev) : Bool := d.sys.mode != .off && (d.sys.mode != .deep || d.pwr.coreOn)

/-- The PLL domain has its power: not in OFF, nor in DEEP before a wake (R479, R494). -/
def clocked (d : Dev) : Bool := d.sys.mode != .off && (d.sys.mode != .deep || d.pwr.pllOn)

/-- A command that acts only where the block is powered. -/
def onLive (s : State) (f : Dev → Dev) : Host.Outcome State Fault Refusal :=
  onDev s fun d => if powered d then f d else d

/-- A command of the clocks, which come up before the rest of a wake. -/
def onClocks (s : State) (f : Dev → Dev) : Host.Outcome State Fault Refusal :=
  onDev s fun d => if clocked d then f d else d

/-- A command whose operands the rules bound; one beyond those bounds changes nothing (assumption 1). -/
def onLiveIf (ok : Bool) (s : State) (f : Dev → Dev) : Host.Outcome State Fault Refusal :=
  onLive s fun d => if ok then f d else d

end Sys2Proof.Machine
end

