-- ==== Sys2Proof/Machine/Capture.lean ====
section
/-! DEFINITION. Captures of a port's receiver and transmitter (R346, R580). In an operation that runs a CAPTURE, `fails1` is
1 once it has started and `left` counts the pages still to write. -/
namespace Sys2Proof.Machine

/-- The port, source, length and address of a CAPTURE. -/
def capParams (o : Op) : Option (W8 × W8 × W32 × W64) :=
  match o.cmd with
  | .capture p s _ l a => some (p, s, l, a)
  | _ => none

/-- A capture of port n that has started and not ended. -/
def capRuns (n : Fin 16) (o : Op) : Bool :=
  o.final.isNone && o.fails1 == 1 &&
  match capParams o with
  | some (p, _, _, _) => portOf p == some n
  | none => false

/-- Values of a page (R580). -/
def capValues (source : W8) : Nat := if source.toNat < 2 then 4080 else 16320

/-- One page: its header, and values that the rules leave open. -/
def capPage (d : Dev) (source : W8) (start : W64) (seq : Seq) : List W8 :=
  leBytes 8 start.toNat ++ leBytes 4 seq.toNat ++ [source, 0] ++ leBytes 2 (capValues source) ++
  (List.range 4080).map fun i => Config.captureByte d.free i

/-- The next page of a capture is written; the last one ends it. -/
def writeCapPage (d : Dev) (o : Op) (start : W64) (seq : Seq) : Dev :=
  match capParams o with
  | none => d
  | some (_, s, l, a) =>
    let k := l.toNat / 4096 - o.left
    let d := d.emit (.memWrite o.fn (a + BitVec.ofNat 64 (4096 * k)) (capPage d s start seq))
    let d := modOp { d with free := d.free + 1 } o.handle fun o => { o with left := o.left - 1 }
    if o.left ≤ 1 then endOp d o.handle stSuccess else d

/-- A downstream superframe begins: the port's DMA channel takes one segment, of the capture accepted first; none while the
controller is down (R26, R580). -/
def captureSuperframe (d : Dev) (n : Fin 16) (start : W64) (seq : Seq) : Dev :=
  if (d.port n).pc.up && !(d.port n).attic.dmaHalt then
    match d.host.ops.find? (capRuns n) with
    | some o => writeCapPage d o start seq
    | none => d
  else d

/-- k segments of a standard mode, one in each 1.92 µs interval from the next boundary of DT. -/
def captureStd : Nat → Dev → W16 → W64 → Dev
  | 0, d, _, _ => d
  | k + 1, d, h, t =>
    match findOp d h with
    | some o => captureStd k (writeCapPage d o t 0) h (t + 480)
    | none => d

/-- A capture starts: in a standard mode its segments follow the boundaries of DT, otherwise the superframes. -/
def startCapture (d : Dev) (h : W16) : Dev :=
  let d := modOp d h fun o => { o with fails1 := 1 }
  match findOp d h with
  | none => d
  | some o =>
    match capParams o with
    | none => d
    | some (p, _, _, _) =>
      match portOf p with
      | some n =>
        if (d.port n).link.mode.std then
          captureStd o.left d h (BitVec.ofNat 64 ((d.dt.dt.toNat / 480 + 1) * 480))
        else d
      | none => d

/-- The CAPTURE that an ID names waits for its CAPTURE_START. -/
def captureWaits (d : Dev) (h : W16) : Option (Fin 16) :=
  match findOp d h with
  | some o =>
    if o.final.isNone && o.fails1 == 0 then
      match o.cmd with
      | .capture p _ s _ _ => if s == 1 then portOf p else none
      | _ => none
    else none
  | none => none

end Sys2Proof.Machine
end

