-- ==== Sys2Proof/Machine/Shroud.lean ====
section
/-! DEFINITION. The crosstalk bus, the filter states of every slice, announced leaves, and the rows that move them
(R22–R24, R154–R168). -/
namespace Sys2Proof.Machine

/-! ### Bundles and publication -/

/-- Isolation cells hold both streams invalid (R23). -/
def isolated (p : Port) : Bool :=
  !p.on || p.link.st == .fenced || p.link.st == .isolated || p.link.st == .retired

/-- The upstream stream's VALID bit (R22, R35, R157). -/
def usValid (d : Dev) (s : Fin 16) : Bool :=
  let p := d.port s
  !isolated p && (!p.link.mode.std || !p.shr.syncExcl) &&
  match p.link.st with
  | .training => p.link.phase != 0 && !p.train.anRun
  | .up | .reef1 => true
  | _ => false

/-- The downstream stream's VALID bit (R22, R157). -/
def dsValid (d : Dev) (s : Fin 16) : Bool :=
  let p := d.port s
  !isolated p && p.link.st == .up && p.train.fecLock && p.link.mode.gletik

/-- TAG of a stream: the mode code; the Gletik tags are one on the upstream stream (R155). -/
def srcTag (d : Dev) (s : Fin 16) (far : Bool) : BitVec 4 :=
  let m := (d.port s).link.mode
  if !far && m.gletik then 1 else BitVec.ofNat 4 m.code

/-! ### Announced leaves (R155, R166) -/

/-- The DT at which the superframe of a USEQ departs, counted from the one that has just departed (R46). -/
def departs (p : Port) (u : Seq) : W64 := p.line.stampUs.dt + BitVec.ofInt 64 ((u - (p.train.useq - 1)).toInt * 2400)

def glkSwitchAddr : W32 := 0xFFFFFF00
def glkReefAddr : W32 := 0xFFFFFF04

/-- Address and data of a REG_WRITE. -/
def OamX.addr (x : OamX) : W32 := BitVec.ofNat 32 (lineFld x.payload 0 32)
def OamX.value (x : OamX) : W32 := BitVec.ofNat 32 (lineFld x.payload 32 32)

/-- The hub's own write of GLK_SWITCH has no answer yet (R128). -/
def switchAsked (p : Port) : Bool := p.oam.live.any fun x => x.op.isNone && x.addr == glkSwitchAddr

/-- The hub's own write of GLK_REEF that asks for an entry, or that cancels one, and has no answer yet. -/
def reefAsked (p : Port) : Option W32 :=
  (p.oam.live.find? fun x => x.op.isNone && x.addr == glkReefAddr && fld x.value 1 0 != 0).map (·.value)
def cancelAsked (p : Port) : Bool := p.oam.live.any fun x => x.op.isNone && x.addr == glkReefAddr && fld x.value 1 0 == 0

/-- The Reef entry that is accepted, or asked for: its level and u (R133, R135). -/
def reefPlan (p : Port) : Option (Nat × Seq) :=
  match p.line.reefAt, reefAsked p with
  | some (l, u), _ => some (l.toNat, u)
  | none, some v => some (fld v 1 0, BitVec.ofNat 24 (fld v 31 8))
  | none, none => none

/-- The DT at which the port's MODE_SWITCH entry is due. -/
def switchPlan (d : Dev) (n : Fin 16) : Option W64 := (d.hal.cal.find? fun e => e.ownOf n && e.action == 0x07).map (·.time)

/-- LEAVING of a stream (R155, R166): during a leave that a command announces, and from T_LEAVE before u departs for an entry to
REEF1 and a MODE_SWITCH (downstream) or to REEF2 (upstream). -/
def leaving (d : Dev) (s : Fin 16) (far : Bool) : Bool :=
  let p := d.port s
  let near (t : W64) : Bool := tLeave d s != 0 && decide (0 ≤ (d.dt.dt + BitVec.ofNat 64 (tLeave d s) - t).toInt)
  !isolated p && (!p.shr.leaves.isEmpty ||
    (match reefPlan p with
      | some (l, u) => (if far then l == 1 && p.link.st == .up else l == 2) && near (departs p u)
      | none => false) ||
    (far && match switchPlan d s with
      | some t => p.link.st == .up && near t
      | none => false))

/-- VALID with LEAVING = 0 (R163). -/
def srcValid (d : Dev) (s : Fin 16) (far : Bool) : Bool :=
  (if far then dsValid d s else usValid d s) && !leaving d s far

/-- A stream as the bus shows it: zeros while the isolation cells hold the port (R156), and upstream in the quiet periods of
Energy-Efficient Ethernet, whose refresh the model does not tell apart from them (R157; DESIGN CHOICE, assumption 193). -/
def onBus (p : Port) (far : Bool) (x : List Int) : List Int :=
  if isolated p || (!far && p.link.mode.std && p.std.lpiTx) then x.map fun _ => 0 else x

/-- The symbols that a port publishes (R155). -/
def published (d : Dev) (s : Fin 16) (far : Bool) : List Int :=
  let p := d.port s
  onBus p far (if far then p.shr.pubDs else p.shr.pubUs)

/-- The symbols that a port published in a clock, while it still holds them (R155). -/
def publishedAt (d : Dev) (s : Fin 16) (far : Bool) (clock : Int) : Option (List Int) :=
  let p := d.port s
  (p.shr.pub.find? fun x => x.1 == clock).map fun x => onBus p far (if far then x.2.2 else x.2.1)

/-! ### Filters -/

/-- Port n's slice cancels (R154, R157). -/
def sliceOn (d : Dev) (n : Fin 16) : Bool :=
  let p := d.port n
  bit d.sys.shrCfg 0 && bit p.cfg.shrPort 7 && (bundle d n).isSome && (!p.link.mode.std || !p.shr.syncExcl)

/-- A filter of port n for source s is in use (R154, R160, R163). -/
def filterUsed (d : Dev) (n s : Fin 16) (far : Bool) : Bool :=
  sliceOn d n && sameBundle d n s && !bit (d.port n).shr.barred s.val &&
  if far then bit (d.port n).cfg.shrPort 5 && !(d.port n).link.mode.std && !(d.port s).link.mode.std
  else bit (d.port n).cfg.shrPort 6

def filt (p : Port) (s : Fin 16) (far : Bool) : Filt := if far then p.shr.fe[s.val] else p.shr.ne[s.val]

def setFilt (p : Port) (s : Fin 16) (far : Bool) (f : Filt) : Port :=
  if far then { p with shr := { p.shr with fe := p.shr.fe.set s.val f } }
  else { p with shr := { p.shr with ne := p.shr.ne.set s.val f } }

def modFilt (d : Dev) (n s : Fin 16) (far : Bool) (g : Filt → Filt) : Dev :=
  d.modPort n fun p => setFilt p s far (g (filt p s far))

/-- The weight of a filter at an instant in units of 1/180 tick, itself in units of 2^-24 (R162, R164, R165): a ramp moves it by
2^-RAMP_SH per victim symbol, and in TRAINING a filter that trains or waits is in the signal path from phase 3. -/
def weightAt (d : Dev) (n : Fin 16) (f : Filt) (t : Int) : Nat :=
  let p := d.port n
  let moved := (t - (f.since.toNat * 180 : Nat)).toNat * fullW / (2 ^ rampSh d * max 1 (rampUnits p.link.mode))
  if f.st == fIn then fullW
  else if f.st == fRampIn then min fullW (f.w + moved)
  else if f.st == fRampOut then f.w - moved
  else if (f.st == fTrain || f.st == fWait) && p.link.st == .training && decide (3 ≤ p.link.phase.toNat) then fullW
  else 0

/-- The weight now. -/
def weight (d : Dev) (n : Fin 16) (f : Filt) : Nat := weightAt d n f (d.dt.dt.toNat * 180 : Nat)

/-- A change of RAMP_SH, or of the victim's symbol rate, acts from now on: what a ramp has covered stands (R164). -/
def rebaseRamps (d : Dev) (n : Fin 16) : Dev :=
  d.modPort n fun p =>
    let g (f : Filt) : Filt := if f.st == fRampIn || f.st == fRampOut then { f with w := weight d n f, since := d.dt.dt } else f
    { p with shr := { p.shr with ne := vmap p.shr.ne g, fe := vmap p.shr.fe g } }

/-- When a ramp reaches its end (R163, R164). -/
def rampEnd (d : Dev) (n : Fin 16) (f : Filt) : W64 :=
  let left := if f.st == fRampIn then fullW - f.w else f.w
  f.since + BitVec.ofNat 64 ((left * 2 ^ rampSh d * rampUnits (d.port n).link.mode + fullW * 180 - 1) / (fullW * 180))

/-- Training from zero coefficients, under a tag. -/
def toTrain (t : W64) (tag : BitVec 4) : Filt := { st := fTrain, tag := tag, since := t }

/-- RAMP_IN from the present w, or IN at once while the port is in TRAINING (R163, R165). -/
def toRampIn (d : Dev) (n : Fin 16) (f : Filt) : Filt :=
  if (d.port n).link.st == .training then f.comeIn d.dt.dt
  else { f.enter fRampIn d.dt.dt with w := weight d n f }

/-- RAMP_OUT from the present w, or the end of the ramp at once while the port is in TRAINING. -/
def toRampOut (d : Dev) (n s : Fin 16) (f : Filt) : Filt :=
  if (d.port n).link.st == .training then toKept d n s f
  else { f.enter fRampOut d.dt.dt with w := weight d n f }

/-- In TRAINING a filter that is OUT waits for phase 3 (R165, R167). -/
def beforePhase3 (p : Port) : Bool := p.link.st == .training && decide (p.link.phase.toNat < 3)

/-- A source turns valid at a reader (R163). -/
def sourceUp (d : Dev) (n s : Fin 16) (far : Bool) : Dev :=
  let tag := srcTag d s far
  let f := filt (d.port n) s far
  if (f.st == fRampOut || f.st == fKept) && f.tag == tag then modFilt d n s far (toRampIn d n)
  else if f.st == fKept || (f.st == fOut && !beforePhase3 (d.port n)) then modFilt d n s far fun _ => toTrain d.dt.dt tag
  else d

/-- A filter in use whose source is valid acts on it. -/
def takeSource (d : Dev) (n s : Fin 16) (far : Bool) : Dev :=
  if filterUsed d n s far && srcValid d s far then sourceUp d n s far else d

/-- Every filter of a port looks at its source: at phase 3, and after a change of mode (R165, R167). -/
def takeSources (d : Dev) (n : Fin 16) : Dev :=
  allPorts.foldl (fun d s => if s == n then d else takeSource (takeSource d n s false) n s true) d

/-- A filter that left a state in this very tick, in which what leads away from subtraction goes first (R163). -/
def justLeft (d : Dev) (f : Filt) (st : BitVec 3) : Bool :=
  (f.st == fIn || f.st == fRampIn) && f.was == st && d.dt.running && f.since == d.dt.dt

/-- A source turns invalid, or leaves, at a reader (R163): one that left WAIT in the same tick goes to OUT from there. -/
def sourceDown (d : Dev) (n s : Fin 16) (far : Bool) : Dev :=
  modFilt d n s far fun f =>
    if justLeft d f fWait then toOut d.dt.dt
    else if f.st == fIn || f.st == fRampIn then toRampOut d n s f
    else if f.st == fTrain || f.st == fWait || f.st == fWeak then toOut d.dt.dt
    else f

/-- A filter no longer in use ramps out when it was subtracting, otherwise it is OUT (R163, last row); one in use acts on a
valid source. With SHR_CFG.ENABLE = 0 nothing is subtracted, and every filter is OUT at once (R154; DEDUCED, assumption 83). -/
def matchFilter (old d : Dev) (n s : Fin 16) (far : Bool) : Dev :=
  if filterUsed d n s far then takeSource d n s far
  else
    modFilt d n s far fun f =>
      if f.st == fOut then f
      else if !bit d.sys.shrCfg 0 then toOut d.dt.dt
      else if f.st == fRampOut then (if (d.port n).link.st == .training then toKept d n s f else f)
      else if f.st == fKept && sameBundle d n s && !filterUsed old n s far then f
      else if weight d n f != 0 then toRampOut d n s f
      else toOut d.dt.dt

/-- Every filter that concerns a port is looked at again after a change of its bundle or enables. -/
def refilter (old d : Dev) (n : Fin 16) : Dev :=
  allPorts.foldl (fun d s =>
    if s == n then d
    else matchFilter old (matchFilter old (matchFilter old (matchFilter old d n s false) n s true) s n false) s n true) d

def refilterAll (old d : Dev) : Dev := d.eachPort (refilter old)

/-- Without RAMP_BLANK no filter stays in WAIT (R165). -/
def rampWaiting (d : Dev) : Dev :=
  if bit d.sys.shrCfg 1 then d
  else
    d.eachPort fun d n => d.modPort n fun p =>
      let g (f : Filt) : Filt := if f.st == fWait then toRampIn d n f else f
      { p with shr := { p.shr with ne := vmap p.shr.ne g, fe := vmap p.shr.fe g } }

/-- q of a near-end filter, by the codes of source and victim (R159). -/
def nearQ : LineMode → LineMode → Nat
  | s, v =>
    let col := match v with
      | .gl25 => 0 | .gl12 => 1 | .gl6 => 2 | .t10g => 3 | .t5g => 4 | .t2g5 => 5 | _ => 6
    let row : List Nat := match s with
      | .t10g => [8, 4, 2, 1, 1, 1, 2]
      | .t5g => [16, 8, 4, 2, 1, 1, 4]
      | .t2g5 => [32, 16, 8, 4, 2, 1, 8]
      | _ => [20, 10, 5, 15, 15, 15, 1]
    row.getD col 1

/-- r and q of a far-end filter (R160). -/
def farRQ (s v : LineMode) : Nat × Nat := (max 1 (rateDiv v / rateDiv s), max 1 (rateDiv s / rateDiv v))

/-- Coefficients of a near-end and a far-end filter (R158, R160). -/
def nearTaps (q : Nat) : Nat := min 48 (960 / q)

/-- A mode change of port n sets every filter whose q or r changes to OUT (R167). -/
def remode (d : Dev) (n : Fin 16) (old new : LineMode) : Dev :=
  if old == new then d
  else allPorts.foldl (fun d s =>
    let sm := (d.port s).link.mode
    let d := if nearQ sm old == nearQ sm new then d else modFilt d n s false fun _ => toOut d.dt.dt
    if farRQ sm old == farRQ sm new && new.gletik then d else modFilt d n s true fun _ => toOut d.dt.dt) d

/-- The echo canceller at a new mode: what its delays held, in the new mode's coefficients (R144; DESIGN CHOICE,
assumption 169). -/
def reEcho (old new : LineMode) (c : Coefs) : Coefs :=
  if ecTaps old == ecTaps new || c.ec.isEmpty then c else { c with ec := echoFill new (echoProfile old c.ec) }

/-- In a standard mode the freshness guard is never armed (R223; its sources end with it, DESIGN CHOICE, assumption 176) and there is
no window (R187, R222); what drains keeps it to its end. -/
def dropGuard (d : Dev) (n : Fin 16) : Dev :=
  dropStale (d.modPort n fun p => { p with
    fresh := { p.fresh with armed := 0, stale := 0, waiting := [] },
    rtx := if p.rtx.draining then p.rtx else { p.rtx with wAct := 0, reduced := false } }) n

/-- The port's line mode changes (R166, R167, R225, R239): the lane follows at once, or at the end of a drain. -/
def setLineMode (d : Dev) (n : Fin 16) (m : LineMode) : Dev :=
  let old := (d.port n).link.mode
  let d := remode (rebaseRamps d n) n old m
  let d := if m.std then dropGuard d n else d
  let d := d.modPort n fun p => { p with
    rx := { p.rx with live := reEcho old m p.rx.live, margins := if old == m then p.rx.margins else [] },
    link := { p.link with mode := m, laneMode := if p.rtx.draining then p.link.laneMode else m } }
  growLeaves (relane d (d.port n).lane)

/-! ### Leaves (R166) -/

/-- A leave is announced only where someone reads and something is published. -/
def announces (d : Dev) (n : Fin 16) : Bool := tLeave d n != 0 && (usValid d n || dsValid d n)

def startLeave (d : Dev) (n : Fin 16) (w : LeaveFor) : Dev :=
  let l : Leave := { what := w, since := d.dt.dt, len := tLeave d n }
  d.modPort n fun p => { p with shr := { p.shr with leaves := p.shr.leaves ++ [l] } }

/-- The value of SHR_PORT that a running leave defers. -/
def shrLeave (p : Port) : Option W32 :=
  p.shr.leaves.findSome? fun l => match l.what with
    | .shrPort v => some v
    | _ => none

/-- An attempt under way is aborted, not failed (R89). -/
def abortAttempt (d : Dev) (n : Fin 16) : Dev :=
  let p := d.port n
  if p.link.st == .training && !p.link.fast then
    d.modPort n fun p => { p with link := { p.link with lastFail := 12 } }
  else d

def goDown (d : Dev) (n : Fin 16) : Dev := enterSt (abortAttempt d n) n .down

/-- PORT_ISOLATE takes effect; a fence of the same tick goes first, and the command ends with STATE (R36, R37). -/
def goIsolated (d : Dev) (n : Fin 16) : Dev :=
  let l := (d.port n).link
  if l.st == .fenced && d.dt.running && l.fenceTick == some d.dt.dt then
    endOps d (fun o => o.isPort n && match o.cmd with | .portIsolate _ => true | _ => false) stState
      (BitVec.ofNat 16 PortSt.fenced.code)
  else enterSt (abortAttempt d n) n .isolated

def setShrPort (d : Dev) (n : Fin 16) (v : W32) : Dev :=
  growLeaves (adaptEntry (refilter d (d.modPort n fun p => { p with cfg := { p.cfg with shrPort := v } }) n) n)

/-- BUNDLE and EN of one value beside the other fields of another. -/
def withBundle (v w : W32) : W32 := (v &&& 0xFFFF_FF78) ||| (w &&& 0x87)

/-- A write of SHR_PORT: a change of BUNDLE or EN is announced, and the other fields change at once; while such a leave runs the
value replaces the pending one (R166). -/
def writeShrPort (d : Dev) (n : Fin 16) (v : W32) : Dev :=
  let p := d.port n
  let moves := (v ^^^ p.cfg.shrPort) &&& 0x87 != 0
  let now (d : Dev) : Dev := setShrPort d n (withBundle v p.cfg.shrPort)
  match shrLeave p with
  | some _ =>
    (now d).modPort n fun p => { p with shr := { p.shr with leaves := p.shr.leaves.map fun l => match l.what with
      | .shrPort _ => { l with what := .shrPort v, op := none }
      | _ => l } }
  | none => if moves && announces d n then startLeave (now d) n (.shrPort v) else setShrPort d n v

/-- Registers that a PORT_CONFIG selects hold their words once the leave has ended (R346). -/
def endPortConfig (d : Dev) (n : Fin 16) : Dev :=
  endOps d (fun o => o.isPort n && o.started && match o.cmd with | .portConfig .. => true | _ => false) stSuccess

/-- The DT at which a leave ends. -/
def Leave.stop (l : Leave) : W64 := l.since + BitVec.ofNat 64 l.len

/-- The leave that ends first. -/
def nextLeave (p : Port) : Option Leave :=
  match p.shr.leaves with
  | [] => none
  | l :: ls => some (ls.foldl (fun a b => if 0 < (a.stop - b.stop).toInt then b else a) l)

/-- What a leave has deferred takes effect. -/
def takeLeave (d : Dev) (n : Fin 16) (w : LeaveFor) : Dev :=
  match w with
  | .portDown =>
    match (d.port n).link.st with
    | .training | .up | .reef1 | .reef2 => goDown d n
    | st => endOps d (fun o => o.isPort n && match o.cmd with | .portDown _ => true | _ => false) stState
        (BitVec.ofNat 16 st.code)
  | .portIsolate =>
    match (d.port n).link.st with
    | .retired => endOps d (fun o => o.isPort n && match o.cmd with | .portIsolate _ => true | _ => false) stState
        (BitVec.ofNat 16 PortSt.retired.code)
    | _ => goIsolated d n
  | .shrPort v => endPortConfig (setShrPort d n (withBundle (d.port n).cfg.shrPort v)) n

/-- A leave ends at its time, and what it deferred takes effect (R166). -/
def leaveEnd (n : Fin 16) (d : Dev) : Dev :=
  match nextLeave (d.port n) with
  | none => d
  | some l =>
    takeLeave ((d.reach l.stop).modPort n fun p => { p with shr := { p.shr with leaves := p.shr.leaves.erase l } }) n l.what

/-! ### Roles (R157, R216, R219, R232) -/

/-- The port designated as LPLL input (R461). -/
def lpllPort (d : Dev) (n : Fin 16) : Bool :=
  fld d.clk.lpllCfg 19 16 == n.val &&
  (fld d.clk.lpllCfg 31 30 == 2 || fld d.clk.lpllCfg 29 28 == 2 || fld d.clk.lpllCfg 27 26 == 2)

/-- A slave-role port that is not the LPLL input is out of its bundle. -/
def excludes (d : Dev) (n : Fin 16) : Bool :=
  let p := d.port n
  p.link.mode.std && !p.std.master && !lpllPort d n

def refreshExcl (d : Dev) (n : Fin 16) : Dev :=
  let x := excludes d n
  if (d.port n).shr.syncExcl == x then d
  else refilter d (d.modPort n fun p => { p with shr := { p.shr with syncExcl := x } }) n

/-- The role under a PT_STD_CFG word: forced by MS, or the one that Clause 98 resolves. -/
def roleOf (std : W32) (resolved : Bool) : Bool :=
  match fld std 31 30 with
  | 0 => true
  | 1 => false
  | _ => resolved

/-! ### The rows -/

/-- A source turns valid: every reader of its bundle acts on it. -/
def crosstalkSourceValid (src : Fin 16) (far : Bool) (d : Dev) : Dev :=
  if srcValid d src far then
    d.eachPort fun d n => takeSource d n src far
  else d

def crosstalkSourceInvalid (src : Fin 16) (far : Bool) (d : Dev) : Dev :=
  if srcValid d src far then d
  else d.eachPort fun d n => if n == src then d else sourceDown d n src far

/-- 2^24 victim symbols in TRAIN (R163). -/
def shroudTrainTimeout (n src : Fin 16) (far : Bool) (d : Dev) : Dev :=
  let f := filt (d.port n) src far
  if f.st == fTrain then
    let d := d.reach (f.since + BitVec.ofNat 64 (symbolTicks 24 (d.port n).link.mode))
    modFilt d n src far fun f => f.enter fWeak d.dt.dt
  else d

/-- 1 s in WEAK (R163). -/
def weakRetryTimeout (n src : Fin 16) (far : Bool) (d : Dev) : Dev :=
  let f := filt (d.port n) src far
  if f.st == fWeak then
    let d := d.reach (f.since + BitVec.ofNat 64 (usTicks 1000000))
    modFilt d n src far fun _ => toTrain d.dt.dt (srcTag d src far)
  else d

/-- A filter whose w has reached 0 may find its source valid again, under another tag. -/
def rampComplete (n src : Fin 16) (far : Bool) (d : Dev) : Dev :=
  let f := filt (d.port n) src far
  if f.st == fRampIn then
    let d := d.reach (rampEnd d n f)
    modFilt d n src far fun f => f.comeIn d.dt.dt
  else if f.st == fRampOut then
    let d := d.reach (rampEnd d n f)
    takeSource (modFilt d n src far (toKept d n src)) n src far
  else d

/-- KEEP_T in KEPT (R163, R179). It goes before a ramp-in of the same tick, after which the source, still valid, is trained anew. -/
def keepTimeout (n src : Fin 16) (far : Bool) (d : Dev) : Dev :=
  let f := filt (d.port n) src far
  if f.st == fKept then
    let d := d.reach (f.since + BitVec.ofNat 64 (usTicks (fld d.sys.shrCfg 31 24 * 10000)))
    modFilt d n src far fun _ => toOut d.dt.dt
  else if justLeft d f fKept then takeSource (modFilt d n src far fun _ => toOut d.dt.dt) n src far
  else d

def execCrosstalkSourceValid (src : Fin 16) (far : Bool) (s : State) : Host.Outcome State Fault Refusal :=
  onLive s (crosstalkSourceValid src far)

def execCrosstalkSourceInvalid (src : Fin 16) (far : Bool) (s : State) : Host.Outcome State Fault Refusal :=
  onLive s (crosstalkSourceInvalid src far)

def execShroudTrainTimeout (n src : Fin 16) (far : Bool) (s : State) : Host.Outcome State Fault Refusal :=
  onLive s (shroudTrainTimeout n src far)

def execWeakRetryTimeout (n src : Fin 16) (far : Bool) (s : State) : Host.Outcome State Fault Refusal :=
  onLive s (weakRetryTimeout n src far)

def execRampComplete (n src : Fin 16) (far : Bool) (s : State) : Host.Outcome State Fault Refusal :=
  onLive s (rampComplete n src far)

def execKeepTimeout (n src : Fin 16) (far : Bool) (s : State) : Host.Outcome State Fault Refusal :=
  onLive s (keepTimeout n src far)

def execLeaveEnd (n : Fin 16) (s : State) : Host.Outcome State Fault Refusal := onLive s (leaveEnd n)

end Sys2Proof.Machine
end

