-- ==== Sys2Proof/Machine/Repair.lean ====
section
/-! DEFINITION. Protected memories: their geometry, spare rows and repairs, what a failing test leads to, the retiring of a
port, and the passes of the in-service test (R541, R548–R562). -/
namespace Sys2Proof.Machine

/-! ### Geometry (R541) -/

/-- Arrays of a port memory, by ID. -/
def portArrays : Nat → Nat
  | 0 => 8 | 1 => 4 | 2 => 2 | 3 => 3 | 4 => 1 | _ => 0

/-- Arrays of memory x; none for a reserved index. -/
def memArrays (x : Fin 132) : Nat :=
  if x.val < 128 then portArrays (x.val % 8)
  else match x.val with
    | 128 => 16 | 129 => 1 | 130 => 8 | _ => 4

def memValid (x : Fin 132) : Bool := memArrays x != 0

/-- Bytes of memory x; the reorder buffer's eighth array has 40 rows. -/
def memBytes (x : Fin 132) : Nat := if x.val < 128 && x.val % 8 == 0 then 468 * 1024 else 65536 * memArrays x

/-- The port that owns memory x. -/
def memPort (x : Fin 132) : Option (Fin 16) := if h : x.val < 128 then some ⟨x.val / 8, by omega⟩ else none

def portMem (n : Fin 16) (id : Fin 8) : Fin 132 := ⟨n.val * 8 + id.val, by omega⟩

def Dev.memSt (d : Dev) (x : Fin 132) : MemSt := d.mem[x.val]

def Dev.modMem (d : Dev) (x : Fin 132) (f : MemSt → MemSt) : Dev := d.setMem x (f (d.memSt x))

/-- Array and row of a byte address: arrays of 64 KiB, rows of 512 B. -/
def memRow (addr : Nat) : Nat × Nat := (addr / 65536, addr % 65536 / 512)

/-- Rows repaired in one array, and those under way. -/
def spareUsed (m : MemSt) (array : Nat) : Nat :=
  (m.repaired.filter fun r => r.1 == array).length + (m.subst.filter fun r => r.1 == array).length

def spareFree (m : MemSt) (array : Nat) : Bool := decide (spareUsed m array < 4)

/-- SPARE_FREE (R567). -/
def sparesLeft (x : Fin 132) (m : MemSt) : Nat := 4 * memArrays x - m.repaired.length - m.subst.length

/-! ### Repair and loss (R514, R548, R552) -/

/-- MEM_REPAIR or MGR_MEM_REPAIR. -/
def repairSrc (x : Fin 132) : BitVec 10 :=
  match memPort x with
  | some n => srcPort n 12
  | none => 0x042

/-- MEM_LOSS or MGR_MEM_LOSS. -/
def lossSrc (x : Fin 132) : BitVec 10 :=
  match memPort x with
  | some n => srcPort n 13
  | none => 0x043

/-- A soft repair begins: the spare row is taken, and the copy runs (R553). -/
def substitute (d : Dev) (x : Fin 132) (array row : Nat) : Dev :=
  moment (d.modMem x fun m => { m with subst := m.subst ++ [(array, row)] }) (repairSrc x)

/-- A hard fault (R548). -/
def hardFault (d : Dev) (x : Fin 132) (addr : Nat) : Dev :=
  let (array, row) := memRow addr
  let d := d.modMem x fun m => { m with hard := satInc m.hard }
  if (d.memSt x).subst.contains (array, row) then d
  else if spareFree (d.memSt x) array then substitute d x array row
  else moment (d.modMem x fun m => { m with loss := true, lost := if m.lost.contains addr then m.lost else addr :: m.lost }) (lossSrc x)

/-! ### Operations over several ports (R562) -/

/-- One part of an operation ends: its failing ports and tests are recorded, and the last part ends it. -/
def partDone (d : Dev) (h : W16) (ports tests : W32) : Dev :=
  let d := modOp d h fun o => { o with left := o.left - 1, fails := o.fails ||| ports, fails1 := o.fails1 ||| tests }
  match findOp d h with
  | some o =>
    if o.left == 0 then
      if o.fails == 0 && o.fails1 == 0 then endOp d h stSuccess else endOp d h stTestFail 0 o.fails o.fails1
    else d
  | none => d

/-- A failure noted in an operation that goes on. -/
def partFails (d : Dev) (h : W16) (ports tests : W32) : Dev :=
  modOp d h fun o => { o with fails := o.fails ||| ports, fails1 := o.fails1 ||| tests }

/-! ### Passes (R559) -/

/-- The slices of one memory: array and first row, 32 rows each; the reorder buffer's eighth array has 40 rows. -/
def memSlices (id : Nat) : List (Nat × Nat × Nat) :=
  (List.range (portArrays id)).flatMap fun a =>
    (if id == 0 && a == 7 then [0, 32] else [0, 32, 64, 96]).map fun r => (id, a, r)

/-- The slices of a pass over the memories of a mask, in ID order. -/
def passSlices (tests : W32) : List (Nat × Nat × Nat) :=
  ((List.range 5).filter fun i => bit tests i).flatMap memSlices

/-- ARG of a slice (R558). -/
def sliceArg (s : Nat × Nat × Nat) : W32 := at_ 24 s.1 ||| at_ 16 s.2.1 ||| at_ 0 s.2.2

/-- The memories a pass tests: those of its BIST_RUN, or all five. -/
def passTests (d : Dev) (b : BistPort) : W32 :=
  match b.op.bind (findOp d) with
  | some o => match o.cmd with
    | .bistRun _ _ t => t
    | _ => 0x1F
  | none => 0x1F

/-- The next slice of a port's pass is placed in the calendar (R301, R559). -/
def placeSlice (d : Dev) (n : Fin 16) : Dev :=
  let b := (d.port n).bist
  match (passSlices (passTests d b))[b.slice.toNat]? with
  | some s => placeEntry d {
      idx := 0, trig := 3, time := 0, rep := 0, ports := portMask n, action := 0x03, arg := sliceArg s,
      handle := 0xFFFF, owner := b.op.getD 0xFFFF }
  | none => d

def dropSlices (d : Dev) (n : Fin 16) : Dev := dropEntries d fun e => e.ownOf n && e.action == 0x03

/-- A pass begins on a port; the device's own pass waits for a command's (R559). -/
def startPass (d : Dev) (n : Fin 16) (op : Option W16) : Dev :=
  let b := (d.port n).bist
  if op.isNone && b.op.isSome then d.modPort n fun p => { p with bist := { p.bist with waiting := some 0 } }
  else
    let d := dropSlices d n
    let d := d.modPort n fun p => { p with bist := { p.bist with
      waiting := if op.isSome && p.bist.passRun && p.bist.op.isNone then some p.bist.slice else p.bist.waiting,
      op := op, passRun := true, slice := 0 } }
    placeSlice d n

/-- A port's pass ends; a waiting pass of the device goes on. -/
def endPass (d : Dev) (n : Fin 16) : Dev :=
  let b := (d.port n).bist
  let d := d.modPort n fun p => { p with bist := { p.bist with
    passRun := false, slice := 0, op := none, waiting := none, passes := satInc p.bist.passes } }
  let d := match b.op with
    | some h => partDone d h 0 0
    | none => d
  match b.waiting with
  | some k => placeSlice (d.modPort n fun p => { p with bist := { p.bist with passRun := true, slice := k } }) n
  | none => d

/-! ### Policy and retirement (R554, R556) -/

/-- POLICY, 3 read as 0 (R563). -/
def policy (d : Dev) : Nat := fld d.bist.cfg 1 0 % 3

/-- A retired port is reported as failing, and has no further tests (R562). -/
def endPortTests (d : Dev) (n : Fin 16) : Dev :=
  let b := (d.port n).bist
  let d := dropSlices d n
  let d := d.modPort n fun p => { p with bist := { p.bist with
    passRun := false, logicRun := false, op := none, waiting := none, slice := 0 } }
  match b.op with
  | some h => partDone d h (BitVec.ofNat 32 (2 ^ n.val)) 0
  | none => d

/-- The port is retired, through ISOLATED when it is neither ISOLATED nor FENCED (R36, R556). -/
def retirePort (d : Dev) (n : Fin 16) : Dev :=
  match (d.port n).link.st with
  | .retired => d
  | .isolated | .fenced => enterSt (endPortTests d n) n .retired
  | _ => enterSt (enterSt (endPortTests d n) n .isolated) n .retired

/-- A failing row of a device memory: a soft repair while a spare is free, else the row stays in use (R554). -/
def repairRow (d : Dev) (x : Fin 132) (array row : Nat) : Dev :=
  if (d.memSt x).subst.contains (array, row) then d
  else if spareFree (d.memSt x) array then
    let d := substitute d x array row
    if policy d == 1 then
      { d with bist := { d.bist with fusePend := d.bist.fusePend ++ [(x.val, array, row)] } }
    else d
  else moment d (lossSrc x)

/-- A failing row of a port memory found by a test: SELFTEST, the port's record, and the policy (R554, R559). -/
def rowFails (d : Dev) (n : Fin 16) (id : Fin 8) (array row : Nat) : Dev :=
  let x := portMem n id
  let d := d.modPort n fun p => { p with bist := { p.bist with
    failMem := BitVec.ofNat 3 id.val, failArray := BitVec.ofNat 4 array, fails := satInc p.bist.fails } }
  let d := moment d (srcPort n 15)
  if policy d == 2 && !(d.memSt x).subst.contains (array, row) && !spareFree (d.memSt x) array then retirePort d n
  else repairRow d x array row

/-- A failure of a port's logic (R554, R560). -/
def logicFails (d : Dev) (n : Fin 16) : Dev :=
  let d := moment d (srcPort n 15)
  if policy d == 2 then retirePort d n else d

end Sys2Proof.Machine
end

