-- ==== Sys2Proof/Machine/Calib.lean ====
section
/-! DEFINITION. Calibration runs of a port (R581–R585). -/
namespace Sys2Proof.Machine

/-- Trims of a port (R581). -/
def trimCount : Nat := 50

def trimOf (l : List W8) (t : Nat) : W8 := l.getD t 0

/-- Steps still to apply (R601). -/
def calPending (g : DiagSt) : Nat :=
  if g.calTargets.isEmpty then 0
  else (List.range trimCount).foldl (fun a t =>
    let x := (trimOf g.trims t).toNat
    let y := (trimOf g.calTargets t).toNat
    a + (x - y) + (y - x)) 0

/-- The next step: the lowest trim off its target, and its present code ±1. -/
def nextStep (g : DiagSt) : Option (Nat × W8) :=
  if g.calTargets.isEmpty then none
  else match (List.range trimCount).find? fun t => trimOf g.trims t != trimOf g.calTargets t with
    | some t =>
      let x := trimOf g.trims t
      some (t, if x < trimOf g.calTargets t then x + 1 else x - 1)
    | none => none

/-- ARG of a step (R582). -/
def stepArg (t : Nat) (code : W8) : W32 := at_ 16 t ||| at_ 0 code.toNat

/-- One step goes into the calendar (R301, R582). -/
def placeStep (d : Dev) (n : Fin 16) : Dev :=
  match nextStep (d.port n).diag with
  | some (t, code) => placeEntry d {
      idx := 0, trig := 3, time := 0, rep := 0, ports := portMask n, action := 0x02, arg := stepArg t code,
      handle := 0xFFFF, fallback := d.dt.dt }
  | none => d

/-- A run starts; a trigger that finds a run joins it (R583). -/
def startRun (d : Dev) (n : Fin 16) (cause : W8) : Dev :=
  d.modPort n fun p =>
    if p.diag.calRunning then p
    else { p with diag := { p.diag with
      calRunning := true, calCause := cause, calTargets := [], calSteps := 0, calUnblanked := 0,
      calFrom := p.diag.trims } }

/-- The largest code change of a run, and its trim. -/
def largestChange (was now : List W8) : Nat × Nat :=
  (List.range trimCount).foldl (fun best t =>
    let x := (trimOf was t).toNat
    let y := (trimOf now t).toNat
    let c := (x - y) + (y - x)
    if best.1 < c then (c, t) else best) (0, 0)

/-- The CAL record (R591). -/
def calRecord (d : Dev) (n : Fin 16) : Dev :=
  let g := (d.port n).diag
  let big := largestChange g.calFrom g.trims
  attic d n 0x10 (leBytes 2 g.calSteps ++ [g.tempLast, g.calCause, BitVec.ofNat 8 big.1, BitVec.ofNat 8 big.2] ++
    leBytes 2 g.calUnblanked)

/-- Every CAL_RUN that waits for port n: `fails` sums the steps, `fails1` holds the ports done (R582). -/
def calPart (d : Dev) (n : Fin 16) (steps : Nat) : Dev :=
  d.host.ops.foldl (fun d o =>
    match o.cmd, o.final with
    | .calRun ports, none =>
      if o.started && bit ports n.val && !bit o.fails1 n.val then
        let d := modOp d o.handle fun o => { o with
          fails := o.fails + BitVec.ofNat 32 steps, fails1 := setBit o.fails1 n.val true }
        match findOp d o.handle with
        | some o => if o.fails1 == ports.setWidth 32 then endOp d o.handle stSuccess 0 o.fails else d
        | none => d
      else d
    | _, _ => d) d

/-- A run is over: it counts, and CAL_LAST takes its last step, if it has made one (R582). -/
def closeRun (g : DiagSt) : DiagSt :=
  { g with
    calRunning := false, calTargets := [], calCount := satInc g.calCount,
    calLast := if g.calSteps == 0 then g.calLast else g.calStepAt,
    calLastPos := if g.calSteps == 0 then g.calLastPos else g.calStepPos }

/-- A run completes (R582): the planned amplitude offset is applied. -/
def endRun (d : Dev) (n : Fin 16) : Dev :=
  let steps := (d.port n).diag.calSteps
  let d := d.modPort n fun p => { p with diag := { closeRun p.diag with txOfs := p.diag.txTarget } }
  calPart (calRecord d n) n steps

/-- A bad reference ends the run with every trim unchanged, and a CAL_RUN that contains it fails (R585). -/
def failRun (d : Dev) (n : Fin 16) (vref rext : Bool) : Dev :=
  let d := d.modPort n fun p => { p with diag := closeRun p.diag }
  let d := calRecord d n
  d.host.ops.foldl (fun d o =>
    match o.cmd, o.final with
    | .calRun ports, none =>
      if o.started && bit ports n.val then
        endOp d o.handle stTestFail 0 (ports.setWidth 32) (BitVec.ofNat 32 (b2n vref + 2 * b2n rext))
      else d
    | _, _ => d) d

/-- x / k to the nearest whole number, a half upward. -/
def nearest (x : Int) (k : Nat) : Int := (2 * x + k) / (2 * (k : Int))

def clip8 (x : Int) : W8 := BitVec.ofInt 8 (max (-128) (min 127 x))

/-- VREFCAL differs from the bandgap by more than 3 %, REXT from the on-die resistor by more than 15 % (R585); deviations in
ppm. -/
def vrefOff (v : Int) : Bool := decide (30000 < v.natAbs)
def rextOff (r : Int) : Bool := decide (150000 < r.natAbs)

/-- What a run's check of the references shows (R595). -/
def noteRefs (d : Dev) (v r : Int) : Dev :=
  { d with age := { d.age with
    vrefBad := vrefOff v, rextBad := rextOff r, vrefDev := clip8 (nearest v 1000), rextDev := clip8 (nearest r 10000) } }

/-- The target codes: the calibrated ones, that of trim 1 with the planner's offset, one code per 0.05 dB (R581, R582). -/
def calTarget (g : DiagSt) (codes : List W8) : List W8 := codes.set 1 (trimOf codes 1 + g.txTarget)

/-- The run of preparation: the references are checked, and every step fires at once (R584, R585). -/
def prepRun (d : Dev) (n : Fin 16) (vref rext : Int) (codes : List W8) : Dev :=
  let d := noteRefs (startRun d n calByPrep) vref rext
  if vrefOff vref || rextOff rext then failRun d n (vrefOff vref) (rextOff rext)
  else
    let goal := calTarget (d.port n).diag codes
    let d := d.modPort n fun p => { p with diag := { p.diag with
      calSteps := calPending { p.diag with calTargets := goal }, trims := padTo 52 goal, tempLast := p.diag.tempNow,
      calStepAt := d.stamp, calStepPos := d.rpos } }
    endRun d n

/-- One step is applied: a step whose trim no longer holds the code next to its own is skipped, and the run goes on from the
present code (R582). -/
def applyStep (d : Dev) (n : Fin 16) (t : Nat) (code : W8) (unblanked : Bool) : Dev :=
  let x := trimOf (d.port n).diag.trims t
  let d := if x == code + 1 || x == code - 1 then
      d.modPort n fun p => { p with diag := { p.diag with
        trims := p.diag.trims.set t code, calSteps := p.diag.calSteps + 1,
        calUnblanked := p.diag.calUnblanked + b2n unblanked, calStepAt := d.stamp, calStepPos := d.rpos } }
    else d
  placeStep d n

/-- The end of a run's steps, or its first measurement: the references are checked, the targets measured, and the run goes
on or completes (R582, R583, R585). -/
def calMeasured (n : Fin 16) (vref rext : Int) (codes : List W8) (d : Dev) : Dev :=
  let g := (d.port n).diag
  if !g.calRunning || (nextStep g).isSome then d
  else
    let d := noteRefs d vref rext
    if vrefOff vref || rextOff rext then failRun d n (vrefOff vref) (rextOff rext)
    else
      let d := d.modPort n fun p => { p with diag := { p.diag with
        calTargets := calTarget p.diag codes, tempLast := p.diag.tempNow } }
      if (nextStep (d.port n).diag).isSome then placeStep d n else endRun d n

/-- The temperature of a port, every 100 ms (R583). -/
def calTemp (n : Fin 16) (celsius : W8) (d : Dev) : Dev :=
  let d := d.modPort n fun p => { p with diag := { p.diag with
    tempNow := celsius,
    plan := { p.diag.plan with tempSum := p.diag.plan.tempSum + celsius.toInt, tempCount := p.diag.plan.tempCount + 1 } } }
  let diff := (celsius.toInt - (d.port n).diag.tempLast.toInt).natAbs
  let limit := fld d.age.calCfg 7 3
  let limit := if 2 ≤ limit ∧ limit ≤ 30 then limit else 8
  if bit d.age.calCfg 1 && decide (limit < diff) then startRun d n calByTemp else d

def execCalTempSample (n : Fin 16) (celsius : W8) (s : State) : Host.Outcome State Fault Refusal :=
  onLive s (calTemp n celsius)

def execCalRunEnd (n : Fin 16) (vref rext : Int) (codes : List W8) (s : State) : Host.Outcome State Fault Refusal :=
  onLiveIf (codes.length == trimCount) s (calMeasured n vref rext codes)

end Sys2Proof.Machine
end

