-- ==== Sys2Proof/Machine/Receiver.lean ====
section
/-! DEFINITION. The receiver's signal path, one clock of 750 MHz after another: its seven stages, the least-mean-square updates,
the window figures, the activity classes, and the anchors with their fence (R117, R142–R152, R158–R161, R171, R217, R218).
Samples are exact: a value in the slicer's scale stands in units of 2^-39. -/
namespace Sys2Proof.Machine

/-! ### Blocks of coefficients

A block holds `rows` coefficient sets side by side: coefficient (rows · t + r) is tap t of row r (R173). What reaches a block for
one output sample is a list of rows with their input values, tap 0 first. -/

/-- A history that stands clock by clock, newest first, as single values, newest first. -/
def flat (h : List (List Int)) : List Int := h.flatMap List.reverse

def dot (a b : List Int) : Int := (List.zipWith (· * ·) a b).foldl (· + ·) 0

/-- Two lists added, the shorter one filled with zeros. -/
def addLists : List Int → List Int → List Int
  | [], b => b
  | a, [] => a
  | x :: a, y :: b => (x + y) :: addLists a b

/-- Every k-th entry, after skipping the number given. -/
def everyNth (k : Nat) : Nat → List Int → List Int
  | _, [] => []
  | 0, x :: xs => x :: everyNth k (k - 1) xs
  | i + 1, _ :: xs => everyNth k i xs

/-- The values of the rows in the order of the block. -/
def interleave : Nat → List (List Int) → List Int
  | 0, _ => []
  | k + 1, rows => rows.map (·.headD 0) ++ interleave k (rows.map List.tail)

def padInts (k : Nat) (l : List Int) : List Int := (l ++ List.replicate (k - l.length) 0).take k

/-- What a block gives for one sample. -/
def blockSum (rows : Nat) (c : List Int) (x : List (Nat × List Int)) : Int :=
  x.foldl (fun a r => a + dot (everyNth rows r.1 c) r.2) 0

/-- One stored coefficient less n / 2^sh, in 16 bits (R144, R145); the rounding is open. -/
def lmsStep (sh : Nat) (c n : Int) : Int :=
  let x := c * 2 ^ sh - n
  let q := if x % 2 ^ sh = 0 then x / 2 ^ sh else if Config.roundUp x sh then x / 2 ^ sh + 1 else x / 2 ^ sh
  max (-32768) (min 32767 q)

/-- c - μ·e·x for a whole block: for each sample of a clock its error and what reached the block for it, summed over the clock's
samples (R145; DESIGN CHOICE, assumption 165). -/
def lmsBlock (rows taps sh : Nat) (c : List Int) (ins : List (List (Nat × List Int))) (e : List Int) : List Int :=
  let row (r : Nat) : List Int := (List.zip ins e).foldl (fun a s =>
    s.1.foldl (fun a x => if x.1 = r then addLists a (x.2.map (· * s.2)) else a) a) []
  List.zipWith (lmsStep sh) (padInts (rows * taps) c) (interleave taps ((List.range rows).map row))

/-- Coefficients as the stores of a mode hold them: their numbers, and 16 bits each (R144, R217). -/
def fitCoefs (m : LineMode) (c : Coefs) : Coefs :=
  let fit (k : Nat) (l : List Int) : List Int := (padInts k l).map fun x => max (-32768) (min 32767 x)
  ⟨fit (ecTaps m) c.ec, fit 40 c.ffe, fit 2 c.dfe⟩

/-! ### What reaches each block -/

/-- Coefficient sets of the echo canceller: one per downstream sampling phase within an own symbol (R144, R217). -/
def ecRows (m : LineMode) : Nat := if m.gletik then rateRatio m else 1

/-- The echo canceller's inputs for a clock of `s` samples, whose own symbols head the history. -/
def echoIns (m : LineMode) (s : Nat) (own : List (List Int)) : List (List (Nat × List Int)) :=
  let c := (own.headD []).length
  let x := flat own
  (List.range s).map fun p =>
    if c = 0 then [] else [(p % ecRows m, (x.drop (c - 1 - p * c / s)).take (ecTaps m / ecRows m))]

/-- The FFE's inputs: 40 echo-free samples (R142). -/
def ffeIns (s : Nat) (fed : List (List Int)) : List (List (Nat × List Int)) :=
  let x := flat fed
  (List.range s).map fun p => [(0, (x.drop (s - 1 - p)).take 40)]

/-- Rows and taps of a Shroud filter, by the modes of source and victim (R158–R160). -/
def filtDims (sm vm : LineMode) (far : Bool) : Nat × Nat :=
  if far then ((farRQ sm vm).1 * (farRQ sm vm).2, 12) else (nearQ sm vm, nearTaps (nearQ sm vm))

/-- A near-end filter's inputs for a clock of `s` samples, the first of them sample number `cnt`, from the source's symbols, whose
newest clock reached the bus with it (R158). -/
def nearIns (q taps lag s cnt : Nat) (us : List (List Int)) : List (List (Nat × List Int)) :=
  let c := (us.headD []).length
  let x := flat us
  (List.range s).map fun p => [((cnt + p) % q, (x.drop (c - 1 - p * c / s + lag)).take taps)]

/-- One symbol of a source's downstream stream for sample p of the delayed clock, `back` victim symbols before it, element e: the
word for that clock came 22 clocks ago, two clocks after it (R155, R160). -/
def farSym (ds : List (List Int)) (s p : Nat) (back : Int) (e : Nat) : Int :=
  let c := (ds.getD 22 []).length
  let newer := ((ds.take 22).map List.length).foldl (· + ·) 0
  let step : Int := ((p : Int) - back) * (c : Int)
  let i : Int := step / Int.ofNat (max 1 s) + Int.ofNat e
  let at' : Int := Int.ofNat newer + Int.ofNat c - 1 - i
  if at' < 0 then 0 else (flat ds).getD at'.toNat 0

def farIns (r q : Nat) (lag : Int) (s cnt : Nat) (ds : List (List Int)) : List (List (Nat × List Int)) :=
  (List.range s).map fun p => (List.range r).map fun e =>
    (((cnt + p) % q) * r + e, (List.range 12).map fun (t : Nat) => farSym ds s p (lag + (t : Int)) e)

/-! ### The decision stages (R78, R142, R143, R217, R218) -/

/-- 1 in the slicer's scale. -/
def rxOne : Int := 2 ^ 39

/-- Decisions are PAM2 until the PAM4 switch (R145). -/
def rxPam2 (p : Port) : Bool := p.link.mode.gletik && p.link.st == .training && decide (p.link.phase.toNat < 6)

/-- The modulo fold of R78, which PAM4 in a Gletik mode takes. -/
def rxFold (p : Port) (x : Int) : Int :=
  if p.link.mode.gletik && !rxPam2 p then (x + 4 * rxOne) % (8 * rxOne) - 4 * rxOne else x

/-- The level above or below a threshold; on it the rules give no decision. -/
def above (x t : Int) : Bool := decide (t < x) || (x == t && Config.sliceUp (x / 2 ^ 26))

def rxSlice (p : Port) (x : Int) : Int :=
  if rxPam2 p then (if above x 0 then 3 else -3)
  else if p.link.mode == .t1g then
    if above x rxOne then 2 else if above x (-rxOne) then 0 else -2
  else if above x (2 * rxOne) then 3
  else if above x 0 then 1
  else if above x (-2 * rxOne) then -1
  else -3

/-- One decision stage over the samples of a clock: DFE feedback of its own decisions, polarity, fold and slicer. Per sample its
slicer input, its decision and the two decisions before it (R111, R142). -/
def decisionStage (p : Port) : List Int → List Int → List (Int × Int × List Int)
  | [], _ => []
  | s :: ss, past =>
    let raw := s - dot p.rx.live.dfe past * 2 ^ 26
    let x := rxFold p (if p.link.polInv then -raw else raw)
    let a := rxSlice p x
    (x, a, past.take 2) :: decisionStage p ss (a :: past.take 1)

/-! ### The step sizes (R145, R148, R152, R176) -/

/-- The activity state in the clock that begins at an instant, in units of 1/180 tick (R148). -/
def activityAt (r : RxSt) (t : Int) : Activity :=
  match r.turns.find? fun x => decide ((x.1.toNat * 180 : Nat) ≤ t) with
  | some x => x.2
  | none => r.richWas

/-- The exponent that activity and SLOW add to F; none while the blocks are frozen. -/
def rxSlower (p : Port) (a : Activity) : Option Nat :=
  match a with
  | .quiet => none
  | .low => some (4 + if p.rx.slow then 2 else 0)
  | .high => some (if p.rx.slow then 2 else 0)

/-- The port's own upstream transmitter is sending (R146). -/
def rxSending (p : Port) : Bool :=
  match p.link.st with
  | .training => p.link.phase != 0 && !p.train.anRun
  | .up | .reef1 => true
  | _ => false

/-- After the PAM4 switch, and from the end of PMA training, each DFE tap stays within 0.5, which is 4,096 in its stored form
(R144, R146, R217). -/
def holdTaps (p : Port) (c : Coefs) : Coefs :=
  if (p.link.mode.gletik && !rxPam2 p) || (p.link.mode.std && !p.train.pmaRun) then
    { c with dfe := c.dfe.map fun x => max (-4096) (min 4096 x) }
  else c

/-- The bound of the DFE takes effect on what the port holds (R146, R217). -/
def boundTaps (p : Port) : Port := { p with rx := { p.rx with live := holdTaps p p.rx.live, shadow := holdTaps p p.rx.shadow } }

/-- HOLD is in effect (R147). -/
def rxHolds (p : Port) : Bool := bit p.cfg.rxCfg 9 && p.link.st == .up

/-- The updates of one clock for the echo canceller, the FFE and the DFE, `f` being what activity and SLOW add to each F
(R145–R147). -/
def lmsOwn (p : Port) (f : Nat) (echo ffe dfe : List (List (Nat × List Int))) (e : List Int) : Port :=
  let m := p.link.mode
  let src := if rxHolds p then p.rx.shadow else p.rx.live
  let ec := if rxSending p then
      lmsBlock (ecRows m) (ecTaps m / ecRows m) (32 + fld p.cfg.rxCfg 31 28 + f) p.rx.live.ec echo e
    else p.rx.live.ec
  let c := holdTaps p ⟨ec, lmsBlock 1 40 (49 + fld p.cfg.rxCfg 27 24 + f) src.ffe ffe e,
    lmsBlock 1 2 (34 + fld p.cfg.rxCfg 23 20 + f) src.dfe dfe e⟩
  if rxHolds p then
    { p with rx := { p.rx with
        live := { p.rx.live with ec := c.ec }, shadow := { p.rx.shadow with ffe := c.ffe, dfe := c.dfe },
        held := p.rx.held || c.ffe != p.rx.live.ffe || c.dfe != p.rx.live.dfe } }
  else { p with rx := { p.rx with live := c, held := false } }

/-! ### One clock (R142–R145, R161) -/

/-- What a window gathers: Σe² in units of 2^-78, samples, Σ of the squared subtracted terms in the same units, and per filter
in TRAIN the squared error without and with its term, and the correlation of the error with the source's symbols at each lag. -/
structure RxWin where
  errSq : Nat := 0
  count : Nat := 0
  subSq : Nat := 0
  train : List (Fin 16 × Bool × Nat × Nat × List Int) := []
  deriving DecidableEq, Repr

/-- The filters of a port that hold coefficients or are about to. -/
def rxFilters (p : Port) : List (Fin 16 × Bool) :=
  (allPorts.flatMap fun s => [(s, false), (s, true)]).filter fun x =>
    let st := (filt p x.1 x.2).st
    st == fTrain || st == fWait || st == fRampIn || st == fIn || st == fRampOut

/-- What reaches one filter for the samples of a clock (R158, R160); a filter without a lag gets nothing. -/
def filtIns (d : Dev) (p : Port) (x : Fin 16 × Bool) (s cnt : Nat) (us ds : List (List Int)) : List (List (Nat × List Int)) :=
  let sm := (d.port x.1).link.mode
  let vm := p.link.mode
  match (filt p x.1 x.2).lag with
  | none => List.replicate s []
  | some lag =>
    if x.2 then farIns (farRQ sm vm).1 (farRQ sm vm).2 lag s cnt ds
    else nearIns (nearQ sm vm) (nearTaps (nearQ sm vm)) lag.toNat s cnt us

/-- y_k of one filter over the samples of a clock, in units of 2^-15 (R161). -/
def filtOut (d : Dev) (p : Port) (x : Fin 16 × Bool) (ins : List (List (Nat × List Int))) : List Int :=
  let rows := (filtDims (d.port x.1).link.mode p.link.mode x.2).1
  ins.map fun i => blockSum rows (filt p x.1 x.2).c i

/-- The symbols at every position that training looks at, for one sample: from the first lag of R158 and R160 to 4 taps past the last, so
that every lag can be chosen (DESIGN CHOICE, assumption 194). -/
def lagSymbols (x : Fin 16 × Bool) (s i : Nat) (us ds : List (List Int)) : List Int :=
  if x.2 then (List.range 68).map fun (l : Nat) => farSym ds s i ((l : Int) - 32) 0
  else
    let c := (us.headD []).length
    ((flat us).drop (c - 1 - i * c / max 1 s)).take 260

/-- In TRAINING from phase 3 a filter in TRAIN or WAIT stands in the signal path (R165). -/
def inPath (p : Port) : Bool := p.link.st == .training && decide (3 ≤ p.link.phase.toNat)

/-- The square of an error in the scale of `RxWin`. -/
def sq (x : Int) : Nat := x.natAbs * x.natAbs

/-- The record of a filter in TRAIN after a clock. In the signal path e_k is already the error with the term subtracted, so there
it is the shadow error (R161, R163, R165; DEDUCED, assumption 166). -/
def growTrain (p : Port) (x : Fin 16 × Bool) (s : Nat) (us ds : List (List Int)) (y e : List Int)
    (r : Fin 16 × Bool × Nat × Nat × List Int) : Fin 16 × Bool × Nat × Nat × List Int :=
  if r.1 != x.1 || r.2.1 != x.2 then r
  else
    let f := filt p x.1 x.2
    let pairs := List.zip e (y.map (· * 2 ^ 24))
    let without := pairs.foldl (fun a t => a + sq (if inPath p then t.1 + t.2 else t.1)) 0
    let with' := pairs.foldl (fun a t => a + sq (if inPath p then t.1 else t.1 - t.2)) 0
    let corr := if f.lag.isSome then r.2.2.2.2
      else (List.zip (List.range s) e).foldl (fun a t => addLists a ((lagSymbols x s t.1 us ds).map (· * t.2))) r.2.2.2.2
    (x.1, x.2, r.2.2.1 + without, r.2.2.2.1 + with', corr)

/-- The update of one filter (R161): in TRAIN, outside the signal path, on the shadow error. -/
def lmsFilt (d : Dev) (f : Nat) (x : Fin 16 × Bool) (ins : List (List (Nat × List Int))) (y e : List Int) (p : Port) : Port :=
  let g := filt p x.1 x.2
  if g.lag.isNone || !(g.st == fTrain || g.st == fRampIn || g.st == fIn) then p
  else
    let dims := filtDims (d.port x.1).link.mode p.link.mode x.2
    let err := if g.st == fTrain && !inPath p then List.zipWith (fun e y => e - y * 2 ^ 24) e y else e
    setFilt p x.1 x.2 { g with c := lmsBlock dims.1 dims.2 (32 + fld p.cfg.rxCfg 19 16 + f) g.c ins err }

/-- A port takes the symbols of the sources of its bundle, and a filter that ramps out goes on taking them (R154, R164). -/
def listens (d : Dev) (n s : Fin 16) (far : Bool) : Bool := sameBundle d n s || (filt (d.port n) s far).st == fRampOut

/-- The symbols of a source's stream as they reach a slice in the clock that begins at an instant: what the source published two clocks
before, where its receiver has processed that clock already, and what the row gives otherwise (R155, R156; DESIGN CHOICE,
assumption 195). -/
def busOf (d : Dev) (n s : Fin 16) (far : Bool) (t : Int) (clk : RxClock) : List Int :=
  if !listens d n s far then []
  else match publishedAt d s far (t / 60 - 2), clk.bus.find? fun b => b.1 == s with
    | some x, _ => x
    | none, some b => onBus (d.port s) far (if far then b.2.2 else b.2.1)
    | none, none => []

/-- The instants of the s samples of a clock, in units of 1/180 tick. -/
def sampleTimes (t : Int) (s : Nat) : List Int := (List.range s).map fun i => t + ((60 * i / s : Nat) : Int)

/-- The terms that one stage subtracts, per sample, in units of 2^-39: each at the weight of its own instant (R142, R162, R164). -/
def stageTerms (d : Dev) (n : Fin 16) (p : Port) (far : Bool) (s cnt : Nat) (us ds : Vector (List (List Int)) 16) (back : Nat)
    (t : Int) : List Int :=
  let fs := if bit d.sys.shrCfg 0 then (rxFilters p).filter fun x => x.2 == far else []
  fs.foldl (fun a x =>
    let ins := filtIns d p x s cnt (us[x.1.val].drop back) ds[x.1.val]
    let ws := (sampleTimes t s).map fun u => ((weightAt d n (filt p x.1 x.2) u : Nat) : Int)
    addLists a (List.zipWith (· * ·) (filtOut d p x ins) ws)) (List.replicate s 0)

/-- One clock of 750 MHz, which begins at an instant t in units of 1/180 tick, through the seven stages, and the updates that follow from
its errors (R142–R147, R161). -/
def rxClock (d : Dev) (n : Fin 16) (x : Port × RxWin) (t : Int) (clk : RxClock) : Port × RxWin :=
  let p := x.1
  let w := x.2
  let h := p.rx.chain
  let s := clk.adc.length
  let own := (clk.own :: h.own).take 530
  let us := Vector.ofFn fun i : Fin 16 => (busOf d n i false t clk :: h.us[i.val]).take 340
  let ds := Vector.ofFn fun i : Fin 16 => (busOf d n i true t clk :: h.ds[i.val]).take 70
  let echo := echoIns p.link.mode s own
  let fed := (List.zipWith (fun a i => a - blockSum (ecRows p.link.mode) p.rx.live.ec i) clk.adc echo :: h.fed).take 66
  let eq := (ffeIns s fed).map fun i => blockSum 1 p.rx.live.ffe i * 2 ^ 11
  let near := stageTerms d n p false s h.count us ds 0 t
  let free := List.zipWith (· - ·) eq near
  let first := decisionStage p free h.dec1
  let dec1 := first.map (·.2.1)
  let newer := (h.delay.map List.length).foldl (· + ·) 0
  let p := { p with
    shr := { p.shr with pubUs := clk.own, pubDs := dec1, pub := ((t / 60, clk.own, dec1) :: p.shr.pub).take 65536 },
    rx := { p.rx with chain := { h with
      own := own, fed := fed, us := us, ds := ds, delay := (free :: h.delay).take 24,
      dec1 := (dec1.reverse ++ h.dec1).take 2, count := h.count + s } } }
  match h.delay.drop 23 with
  | [] => (p, { w with subSq := w.subSq + (near.map sq).foldl (· + ·) 0 })
  | late :: _ =>
    let s' := late.length
    let cnt := h.count - newer
    let far := stageTerms d n p true s' cnt us ds 24 t
    let last := decisionStage p (List.zipWith (· - ·) late far) h.dec2
    let dec2 := last.map (·.2.1)
    let e := last.map fun t => t.1 - t.2.1 * rxOne
    let fs := (rxFilters p).map fun x =>
      let ins := filtIns d p x s' cnt (us[x.1.val].drop 24) ds[x.1.val]
      (x, ins, filtOut d p x ins)
    let w : RxWin := {
      errSq := w.errSq + (e.map sq).foldl (· + ·) 0, count := w.count + s',
      subSq := w.subSq + (near.map sq).foldl (· + ·) 0 + (far.map sq).foldl (· + ·) 0,
      train := fs.foldl (fun l t => l.map (growTrain p t.1 s' (us[t.1.1.val].drop 24) ds[t.1.1.val] t.2.2 e)) w.train }
    let p := { p with rx := { p.rx with chain := { p.rx.chain with dec2 := (dec2.reverse ++ h.dec2).take 2 } } }
    match rxSlower p (activityAt p.rx t) with
    | none => (p, w)
    | some f =>
      let p := lmsOwn p f (echoIns p.link.mode s' (own.drop 24)) (ffeIns s' (fed.drop 24)) (last.map fun t => [(0, t.2.2)]) e
      (fs.foldl (fun p t => lmsFilt d f t.1 t.2.1 t.2.2 e p) p, w)

/-- A stretch of clocks, the last of which ends now. -/
def rxRun (d : Dev) (n : Fin 16) (clocks : List RxClock) : Port × RxWin :=
  let p := d.port n
  let start : Int := (d.dt.dt.toNat * 180 : Nat) - (60 * clocks.length : Nat)
  (List.zip (List.range clocks.length) clocks).foldl (fun x c => rxClock d n x (start + (60 * c.1 : Nat)) c.2)
    (p, { train := ((rxFilters p).filter fun x => (filt p x.1 x.2).st == fTrain).map fun x => (x.1, x.2, 0, 0, []) })

/-! ### The figures of a window (R117, R171, R218) -/

/-- k ≤ u · log10 (a / b) + 1/2, by whole numbers. -/
def logTest (u a b : Nat) (k : Int) : Bool :=
  let e := 2 * k - 1
  if 0 ≤ e then decide (10 ^ e.toNat * b ^ (2 * u) ≤ a ^ (2 * u)) else decide (b ^ (2 * u) ≤ a ^ (2 * u) * 10 ^ (-e).toNat)

/-- round (100 · log10 (a / b)), within 16 bits. -/
def log100 (a b : Nat) : Int :=
  ((List.range 16).map fun i => 15 - i).foldl (fun k i => if logTest 100 a b (k + 2 ^ i) then k + 2 ^ i else k) (-32768)

/-- The margin of R117 or R218, in 0.1 dB, from a sum of squared slicer errors in units of 2^-unit. Without any error the formulas
give no value. -/
def marginOf (m : LineMode) (errSq count unit : Nat) : Int :=
  if errSq = 0 ∨ count = 0 then Config.perfectMargin
  else if m == .t1g then log100 (8 * count * 2 ^ unit) (3 * errSq) - 150
  else log100 (5 * count * 2 ^ unit) errSq - 190

/-- GAIN (R171). -/
def gainOf (w : RxWin) : Int := if w.errSq = 0 then Config.perfectMargin else log100 (w.errSq + w.subSq) w.errSq

/-! ### Background training (R158, R160, R163) -/

/-- The index of the strongest correlation, the least one among equals. -/
def strongest (l : List Int) : Nat :=
  ((List.zip (List.range l.length) l).foldl (fun (b : Nat × Nat) x => if b.2 < x.2.natAbs then (x.1, x.2.natAbs) else b) (0, 0)).1

/-- The lag that a window's correlation gives: 4 taps before the strongest one, within its range. -/
def lagOf (far : Bool) (corr : List Int) : Int :=
  let k : Int := strongest corr
  if far then max (-32) (k - 32 - 4) else max 0 (k - 4)

/-- The window's verdict on a filter in TRAIN: its lag, or its acceptance (R158, R163, R165). -/
def judgeTrain (d : Dev) (n : Fin 16) (r : Fin 16 × Bool × Nat × Nat × List Int) : Dev :=
  modFilt d n r.1 r.2.1 fun f =>
    if f.st != fTrain then f
    else match f.lag with
      | none => if r.2.2.2.2.isEmpty then f else { f with lag := some (lagOf r.2.1 r.2.2.2.2) }
      | some _ =>
        if 10 ^ fld d.sys.shrCfg 15 8 * r.2.2.2.1 ^ 1000 ≤ r.2.2.1 ^ 1000 && r.2.2.1 != 0 then
          if bit d.sys.shrCfg 1 then f.enter fWait d.dt.dt else toRampIn d n (f.enter fWait d.dt.dt)
        else f

/-- The end of a window for the filters in TRAIN. -/
def judgeAll (d : Dev) (n : Fin 16) (w : RxWin) : Dev := w.train.foldl (fun d r => judgeTrain d n r) d

/-! ### The activity monitor (R148) -/

/-- A share of the decisions lies within lo–hi %. -/
def shareIn (l : List Int) (a : Int) (lo hi : Nat) : Bool :=
  let k := (l.filter (· == a)).length * 100
  decide (lo * l.length ≤ k) && decide (k ≤ hi * l.length)

/-- The normalised autocorrelation at lags 1–40 lies within ±0.1. -/
def whiteEnough (l : List Int) : Bool :=
  let power := (l.map sq).foldl (· + ·) 0
  (List.range 40).all fun i => decide ((dot l (l.drop (i + 1))).natAbs * 10 ≤ power)

/-- The condition of HIGH over the last 2^16 final decisions, which head the list, the newest first. -/
def highActivity (p : Port) (given : List Int) : Bool :=
  let l := given.take 65536
  l.length == 65536 && whiteEnough l &&
  if rxPam2 p then [-3, 3].all fun a => shareIn l a 40 60
  else if p.link.mode == .t1g then [-2, 0, 2].all fun a => shareIn l a 23 43
  else [-3, -1, 1, 3].all fun a => shareIn l a 15 35

/-- The class of a signal: its energy, that of the trained signal, and the last final decisions. -/
def classify (p : Port) (energy trained : Nat) (decisions : List Int) : Activity :=
  if energy * 100 < trained then .quiet else if highActivity p decisions then .high else .low

/-- The activity state changes; a state other than HIGH marks the margin window (R149, R151). -/
def setRich (t : W64) (p : Port) (a : Activity) : Port :=
  { p with rx := { p.rx with
    winPoor := p.rx.winPoor || p.rx.rich != .high || a != .high, rich := a,
    turns := if p.rx.rich == a then p.rx.turns else (t, a) :: p.rx.turns } }

def activityStateChange (n : Fin 16) (energy trained : Nat) (decisions : List Int) (d : Dev) : Dev :=
  d.modPort n fun p => setRich d.dt.dt p (classify p energy trained decisions)

/-! ### Anchors and the drift fence (R149–R152) -/

/-- Σ(c - a)² and Σa² of one block. -/
def sumSq (l : List Int) : Nat := l.foldl (fun a x => a + sq x) 0

def drift (live anchor : List Int) : Nat := sumSq (addLists live (anchor.map fun x => -x))

/-- FENCE_SH and REVERT_LOSS, reserved values as the port uses them (R176). -/
def fenceSh (c : PortCfg) : Nat := let f := fld c.rxCfg 8 6; if f == 0 then 4 else f
def revertLoss (c : PortCfg) : Nat := let r := fld c.rxCfg 5 2; if r == 0 then 5 else r

/-- D exceeds 2^-FENCE_SH, for coefficients stored in units of 1/2^k (R150). -/
def beyondFence (f k : Nat) (live anchor : List Int) : Bool :=
  decide (max (sumSq anchor) (2 ^ (2 * k - 10)) < drift live anchor * 2 ^ f)

/-- A Shroud filter beyond the fence: only one in IN has an anchor. -/
def filtBeyond (f : Nat) (x : Filt) : Bool := x.st == fIn && beyondFence f 15 x.c x.a

/-- A Shroud filter back at its anchor, and one that takes its coefficients for its anchor (R149–R151). -/
def Filt.back (x : Filt) : Filt := if x.st == fIn then { x with c := x.a } else x
def Filt.renew (x : Filt) : Filt := if x.st == fIn then { x with a := x.c } else x

/-- The drift fence: each block beyond it reverts alone, in the shadow set too (R150, R152). -/
def driftFence (d : Dev) (n : Fin 16) : Dev × Nat :=
  let p := d.port n
  let f := fenceSh p.cfg
  let e := beyondFence f 15 p.rx.live.ec p.rx.anchor.ec
  let q := beyondFence f 13 p.rx.live.ffe p.rx.anchor.ffe
  let r := beyondFence f 13 p.rx.live.dfe p.rx.anchor.dfe
  let hits := b2n e + b2n q + b2n r + (allPorts.filter fun s => filtBeyond f p.shr.ne[s.val]).length +
    (allPorts.filter fun s => filtBeyond f p.shr.fe[s.val]).length
  (d.modPort n fun p => { p with
    rx := { p.rx with
      live := {
        ec := if e then p.rx.anchor.ec else p.rx.live.ec,
        ffe := if q then p.rx.anchor.ffe else p.rx.live.ffe,
        dfe := if r then p.rx.anchor.dfe else p.rx.live.dfe },
      shadow := { p.rx.shadow with
        ffe := if q then p.rx.anchor.ffe else p.rx.shadow.ffe,
        dfe := if r then p.rx.anchor.dfe else p.rx.shadow.dfe },
      fenceHits := satAdd p.rx.fenceHits hits },
    shr := { p.shr with
      ne := vmap p.shr.ne fun x => if filtBeyond f x then x.back else x,
      fe := vmap p.shr.fe fun x => if filtBeyond f x then x.back else x } }, hits)

/-- Every block reverts to its anchor (R151); 8 reverts within 1 s slow the loops (R152). -/
def revertAll (d : Dev) (n : Fin 16) : Dev :=
  let d := d.modPort n fun p => { p with
    rx := { p.rx with
      live := p.rx.anchor, shadow := p.rx.anchor, held := false, reverts := satInc p.rx.reverts,
      revertAt := (d.dt.dt :: p.rx.revertAt).take 8 },
    shr := { p.shr with ne := vmap p.shr.ne Filt.back, fe := vmap p.shr.fe Filt.back } }
  let r := (d.port n).rx.revertAt
  if decide (8 ≤ r.length) && decide ((d.dt.dt - r.getD 7 0).toNat ≤ usTicks 1000000) then
    moment (d.modPort n fun p => { p with rx := { p.rx with slow := true, revertAt := [] } }) (srcPort n 1)
  else d

/-- All anchors are renewed, and the snapshot saved (R121, R149). -/
def renewAnchors (d : Dev) (n : Fin 16) (margin : Int) : Dev :=
  d.modPort n fun p => saveSnapshot { p with
    rx := { p.rx with anchor := p.rx.live, anchorMargin := s16 margin, renewAt := d.dt.dt },
    shr := { p.shr with ne := vmap p.shr.ne Filt.renew, fe := vmap p.shr.fe Filt.renew } }

/-- The anchor rules at the end of a window, while UP (R149–R152); `high` is that the activity was HIGH throughout it. The rules
give the drift fence no instant of its own, so it too is looked at here (DESIGN CHOICE, assumption 167). -/
def anchorRules (d : Dev) (n : Fin 16) (margin : Int) (high : Bool) : Dev :=
  let r := driftFence d n
  let d := r.1
  let p := d.port n
  let a := p.rx.anchorMargin.toInt
  if margin ≤ a - revertLoss p.cfg ∧ !high then revertAll d n
  else if high ∧ (20 ≤ margin ∨ a - 3 ≤ margin) ∧ r.2 = 0 ∧
      usTicks 1000000 ≤ (d.dt.dt - p.rx.renewAt).toNat then renewAnchors d n margin
  else d

/-- A window that was HIGH throughout counts in the present hour of the planner (R588). -/
def planMargin (s : PlanSt) (margin : Int) : PlanSt :=
  { s with sum := s.sum + margin, count := s.count + 1, low := if s.count = 0 then margin else min s.low margin }

/-! ### Held updates (R147) -/

/-- Held updates go into the live set (R147). -/
def copyShadow (p : Port) (forced : Bool) : Port :=
  { p with rx := { p.rx with
      live := { ec := p.rx.live.ec, ffe := p.rx.shadow.ffe, dfe := p.rx.shadow.dfe }, held := false,
      copyMargin := p.link.marginCur.toInt, forced := if forced then satInc p.rx.forced else p.rx.forced } }

/-- The held copy that a margin loss of 0.5 dB forces (R147). -/
def forceHeld (d : Dev) (n : Fin 16) (margin : Int) : Dev :=
  let p := d.port n
  if p.rx.held && decide (margin ≤ p.rx.copyMargin - 5) then d.modPort n fun p => copyShadow p true else d

/-- HELD_UPDATE_TIMEOUT: 100 ms since the last copy (R147). Without a pending update there is nothing to apply, and FORCED does not
count (DESIGN CHOICE, assumption 168). -/
def heldUpdateTimeout (n : Fin 16) (d : Dev) : Dev :=
  let p := d.port n
  if p.link.st == .up && p.rx.held then d.modPort n fun p => copyShadow p true else d

def slowPeriodExpiry (n : Fin 16) (d : Dev) : Dev :=
  d.modPort n fun p => { p with rx := { p.rx with slow := false } }

/-! ### The rows -/

def execSlowPeriodExpiry (n : Fin 16) (s : State) : Host.Outcome State Fault Refusal := onLive s (slowPeriodExpiry n)

def execHeldUpdateTimeout (n : Fin 16) (s : State) : Host.Outcome State Fault Refusal := onLive s (heldUpdateTimeout n)

def execActivityStateChange (n : Fin 16) (energy trained : Nat) (decisions : List Int) (s : State) :
    Host.Outcome State Fault Refusal :=
  onLive s (activityStateChange n energy trained decisions)

end Sys2Proof.Machine
end

