-- ==== Sys2Proof/Machine/Link.lean ====
section
/-! DEFINITION. Bringing a pair up: beacon and answer, the training phases, the training downshift, fast retrain, and the end of a
margin window (R89–R131). -/
namespace Sys2Proof.Machine

/-! ### Phases (R91, R107, R124, R131) -/

/-- The timeout of a port's present phase, in DT ticks; none where no phase timer runs. -/
def phaseTicks (p : Port) : Option Nat :=
  if p.link.st != .training || p.train.anRun || p.train.pmaRun || p.train.toneOn || p.train.dropStd != 0 then none
  else if p.train.abbrev_ then
    match p.link.phase.toNat with
    | 6 => some (usTicks 300) | 7 => some (usTicks 150) | _ => none
  else if p.link.fast then
    match p.link.phase.toNat with
    | 2 => some (usTicks 300) | 3 => some (usTicks 600) | 4 => some (usTicks 300) | 5 => some (usTicks 200)
    | 6 => some (usTicks 400) | 7 => some (usTicks 200) | _ => none
  else
    match p.link.phase.toNat with
    | 0 => some (usTicks 15000) | 1 => some (usTicks 4000) | 2 => some (usTicks 6000) | 3 => some (usTicks 130000)
    | 4 => some (usTicks 10000) | 5 => some (usTicks 2000) | 6 => some (usTicks 5000) | 7 => some (usTicks 8000)
    | _ => none

/-- The DT at which the present phase times out. -/
def phaseEnd (p : Port) : Option W64 := (phaseTicks p).map fun t => p.link.phaseAt + BitVec.ofNat 64 t

/-- A phase ends by its event; in the tick of its timeout the event wins and NEAR counts it (R91). -/
def nearCheck (d : Dev) (n : Fin 16) : Dev :=
  if phaseEnd (d.port n) == some d.dt.dt then
    d.modPort n fun p => { p with link := { p.link with near := satInc p.link.near } }
  else d

def toPhase (d : Dev) (n : Fin 16) (k : BitVec 4) : Dev :=
  let d := nearCheck d n
  d.modPort n fun p => { p with link := { p.link with phase := k, phaseAt := d.dt.dt } }

def inPhase (p : Port) (k : BitVec 4) : Bool :=
  p.link.st == .training && p.link.phase == k && !p.train.anRun && !p.train.pmaRun && !p.train.toneOn &&
  p.train.dropStd == 0

/-! ### Modes in common (R93, R99, R118), under the registers as the attempt took them (R137, R233) -/

def hubModes (p : Port) : Nat := fld p.link.cfgNow 23 16
def partnerModes (p : Port) : Nat := fld p.link.partner 31 24
def floorCode (p : Port) : Nat := fld p.link.cfgNow 11 8
def anPolicy (p : Port) : Nat := fld p.link.cfgNow 25 24

/-- The standard modes of a bitmap (R93). -/
def stdModes (map : Nat) : Nat := (map / 8) % 16 * 8

def ladder : List LineMode := [.gl25, .gl12, .gl6, .t10g]

/-- The target mode of R99: the first Gletik mode from TOP to FLOOR that both ends permit. -/
def targetMode (d : Dev) (n : Fin 16) (theirs : Nat) : Option LineMode :=
  let p := d.port n
  [LineMode.gl25, .gl12, .gl6].find? fun m =>
    decide (effTop d n p.link.cfgNow ≤ m.code) && decide (m.code ≤ floorCode p) && m.inMap (hubModes p) && m.inMap theirs

/-- The next ladder mode of R118, or none. -/
def nextDown (p : Port) : Option LineMode :=
  ladder.find? fun m =>
    decide (p.link.mode.code < m.code) && decide (m.code ≤ floorCode p) && m.inMap (hubModes p) && m.inMap (partnerModes p)

/-- Clause 98 auto-negotiation starts and advertises the standard modes of a bitmap, EEE only beside 10GBASE-T1, OAM and the
role (R92, R102, R214–R216, R219). -/
def startAn (d : Dev) (n : Fin 16) (modes : Nat) : Dev :=
  let d := d.modPort n fun p => { p with
    link := { p.link with phase := 1, fast := false, phaseAt := d.dt.dt },
    train := { pcSet := p.train.pcSet, anRun := true },
    std := { p.std with advert := BitVec.ofNat 8 modes } }
  let c := (d.port n).link.stdNow
  d.emit (.autoneg n (BitVec.ofNat 8 modes) (bit c 24 && LineMode.t10g.inMap modes) (bit c 23) (BitVec.ofNat 2 (fld c 31 30)))

/-- The forced mode of R219: PMA training without auto-negotiation. -/
def startForced (d : Dev) (n : Fin 16) : Dev :=
  let c := (d.port n).link.stdNow
  let m := forceMode c
  let master := fld c 31 30 % 2 == 0
  let d := setLineMode d n m
  let d := d.modPort n fun p => { p with
    link := { p.link with phase := 3, fast := false, phaseAt := d.dt.dt, attemptTimer := false },
    train := { pcSet := p.train.pcSet, pmaRun := true },
    std := { p.std with mode := m, master := master, eee := false, oam := bit c 23 } }
  takeSources (refreshExcl (d.emit (.pmaTraining n m master)) n) n

/-! ### Preparation and beacon (R92, R94, R99, R102, R110) -/

/-- Preparation ends (R92, R110): the start-up test of R557, the trims and the run of R584, then beacon or
auto-negotiation. A link partner left asleep hears the wake tone before the beacon (R135; DESIGN CHOICE, assumption 196). -/
def preparationDone (n : Fin 16) (failing : List (Fin 8 × Nat × Nat)) (vref rext : Int) (codes : List W8) (d : Dev) : Dev :=
  if !inPhase (d.port n) 0 then d
  else
    let test := bit d.bist.cfg 3 && !(d.port n).bist.startDone
    let d := if test then failing.foldl (fun d f => rowFails d n f.1 f.2.1 f.2.2) d else d
    let d := d.modPort n fun p => { p with bist := { p.bist with startDone := true } }
    if (d.port n).link.st != .training then
      if (d.port n).link.st == .retired then
        d.modPort n fun p => { p with link := { p.link with lastFail := 13, fails := satInc p.link.fails } }
      else d
    else
      let d := prepRun d n vref rext codes
      let p := d.port n
      if anPolicy p == 2 then
        if bit p.link.stdNow 29 then startAn (nearCheck d n) n (stdModes (hubModes p)) else startForced (nearCheck d n) n
      else
        let c := callPartner d n
        (toPhase c.2 n 1).modPort n fun p => { p with train := { p.train with toneOn := c.1 } }

/-- The 1,500 symbols of a beacon frame: sync word and info as they are, then the training keystream from symbol 256 (R43,
R94). -/
def beaconLevels (info : BitVec 192) : List Int :=
  pam2Levels 64 beaconSync.toNat ++ pam2Levels 192 info.toNat ++ pam2Levels 1244 (keystream 1244 trainSeedUs)

/-- One beacon frame of the window of 2,000, or one of the 8 standard-mode frames that follow an answer (R94, R96, R99); after the
last of these, auto-negotiation starts. -/
def beaconFrame (n : Fin 16) (d : Dev) : Dev :=
  let p := d.port n
  if !inPhase p 1 || (2000 ≤ p.train.beacon.toNat && p.train.stdBeacons.isNone) then d
  else
    let modes := match p.train.stdBeacons with
      | some _ => stdModes (hubModes p) &&& partnerModes p
      | none => hubModes p
    let info := beaconInfo modes (roleCode d).toNat (devId d).toNat n.val d.pair.pepoch.toNat p.train.beacon.toNat
      p.link.attempt.toNat
    let d := (d.modPort n fun p => { p with train := { p.train with
      beacon := p.train.beacon + 1, stdBeacons := p.train.stdBeacons.map fun k => k - 1 } }).emit (.beacon n (beaconLevels info))
    if (d.port n).train.stdBeacons == some 0 then startAn d n modes else d

/-- The window that a partner's buffer allows is shorter: the event of R100. -/
def windowReduced (d : Dev) (n : Fin 16) (m : LineMode) (rtxd : Nat) : Dev :=
  let c := (d.port n).cfg
  let w := windowFor c rtxd m
  if w.2 then
    portEvent d n 0x0011 [BitVec.ofNat 8 (cfgW c), BitVec.ofNat 8 w.1, BitVec.ofNat 8 rtxd]
  else d

/-- An answer is accepted (R99, R141). -/
def acceptAnswer (d : Dev) (n : Fin 16) (a : Answer) : Dev :=
  let d := d.modPort n fun p => { p with
    link := { p.link with
      partner := at_ 24 a.modes ||| at_ 16 a.rtxd ||| at_ 0 a.vendor, partnerValid := true, dual := a.dual },
    train := { p.train with answers := 0, ulocks := 0 } }
  let p := d.port n
  match targetMode d n a.modes with
  | some m =>
    let d := setLineMode d n m
    let d := windowReduced d n m a.rtxd
    let d := toPhase d n 2
    d.modPort n fun p => { p with train := { p.train with useq := 0, start := none, switch := none, ulocks := 0 } }
  | none =>
    if stdModes (hubModes p) &&& a.modes != 0 && anPolicy p == 0 then
      (nearCheck d n).modPort n fun p => { p with train := { p.train with stdBeacons := some 8 } }
    else failAttempt d n 11

/-- A training USEQ that is a multiple of 4 and at least k superframes after the next one to depart (R108, R113). -/
def placeUseq (useq : Seq) (k : Nat) : Seq := BitVec.ofNat 24 ((useq.toNat + k + 3) / 4 * 4)

/-- One answer frame, its 64 and 192 bits as the line gives them (R95, R99, R108). The complement of the sync word inverts the
receive polarity, from then on until the link ends. -/
def answerFrame (n : Fin 16) (sync : W64) (info : BitVec 192) (d : Dev) : Dev :=
  let p := d.port n
  if !(inPhase p 1 || inPhase p 2) || p.link.fast || p.train.stdBeacons.isSome then d
  else
    let inv := p.train.rxInv || sync == ~~~answerSync
    let d := d.modPort n fun p => { p with
      link := { p.link with polInv := inv }, train := { p.train with rxInv := inv } }
    let a := parseAnswer (if inv then ~~~info else info)
    let known := sync == if inv then ~~~answerSync else answerSync
    let mine := a.crcOk && a.port == n.val && a.devid == (devId d).toNat && a.attempt == p.link.attempt.toNat
    if !known || !mine then
      d.modPort n fun p => { p with train := { p.train with
        badFrames := p.train.badFrames + 1, answers := 0, ulocks := 0 } }
    else if p.link.phase == 1 then
      if p.train.answers + 1 == 3 then acceptAnswer d n a
      else d.modPort n fun p => { p with train := { p.train with answers := p.train.answers + 1 } }
    else
      let u := if a.ulock then p.train.ulocks + 1 else 0
      d.modPort n fun p => { p with train := { p.train with
        ulocks := u,
        start := if decide (3 ≤ u) && p.train.start.isNone then some (placeUseq p.train.useq 8) else p.train.start } }

/-- The beacon window ends without an accepted answer (R102). -/
def beaconWindowExpiry (n : Fin 16) (d : Dev) : Dev :=
  let p := d.port n
  if !inPhase p 1 || p.link.fast || p.train.stdBeacons.isSome then d
  else
    let std := stdModes (hubModes p)
    if anPolicy p == 0 && std != 0 then startAn d n std else failAttempt d n 1

/-! ### Operational seeds (R57) -/

/-- The seeds that the other ports of the bundle hold in one direction. -/
def takenSeeds (d : Dev) (n : Fin 16) (us : Bool) : List (BitVec 58) :=
  (allPorts.filter fun s => sameBundle d n s).flatMap fun s =>
    let l := (d.port s).line
    if us then [l.seedUs, l.dsSeedUs] else [l.seedDs, l.dsSeedDs]

/-- The first value from v that is not 0 and not taken. -/
def legalFrom (taken : List (BitVec 58)) : Nat → BitVec 58 → BitVec 58
  | 0, v => v
  | k + 1, v => if v == 0 || taken.contains v then legalFrom taken k (v + 1) else v

def legalSeed (d : Dev) (n : Fin 16) (us : Bool) (v : BitVec 58) : BitVec 58 := legalFrom (takenSeeds d n us) 32 v

/-! ### Training downshift and the end of phase 6 (R118, R119, R125, R131) -/

/-- Back to training framing for phase 3 at a new rate; USEQ counts on, so that the epochs go on unbroken (R105, R118). Phase 3 and its
fresh timeout begin at the decision, before the superframe of the new START departs (DESIGN CHOICE, assumption 60). -/
def backToPhase3 (d : Dev) (n : Fin 16) (m : LineMode) : Dev :=
  let d := setLineMode d n m
  let d := windowReduced d n m (fld (d.port n).link.partner 23 16)
  let d := d.modPort n fun p => { p with
    link := { p.link with phase := 3, phaseAt := d.dt.dt, steps := p.link.steps + 1 },
    train := { p.train with
      start := some (placeUseq p.train.useq 8), switch := none, echoed := false, acks := 0, fecLock := false,
      goodRun := 0, badRun := 0, locked := false, measured := false, echoStart := none } }
  takeSources d n

/-- The step down of R118; without a lower mode, the floor rule of R119. `onward` is what a port at the floor goes on
with. A phase that ends by a step in the tick of its timeout counts in NEAR (R91). -/
def stepDown (d : Dev) (n : Fin 16) (margin : Int) (onward : Dev → Dev) : Dev :=
  let p := d.port n
  match nextDown p with
  | some .t10g =>
    (nearCheck d n).modPort n fun p => { p with
      link := { p.link with phase := 3, phaseAt := d.dt.dt, steps := p.link.steps + 1 },
      train := { p.train with start := none, switch := none, dropStd := 8 } }
  | some m => backToPhase3 (nearCheck d n) n m
  | none =>
    if 10 ≤ margin ∧ bit p.link.cfgNow 4 then
      let d := moment d (srcPort n 0)
      onward (d.modPort n fun p => { p with link := { p.link with lowMargin := true } })
    else failAttempt d n 9

/-- A fast retrain at the target mode from the derived coefficients (R131). -/
def derivedRetrain (d : Dev) (n : Fin 16) : Dev :=
  d.modPort n fun p => restartCmds { p with
    rx := { p.rx with live := p.line.dsCoefs },
    link := { p.link with phase := 2, phaseAt := d.dt.dt, fast := true },
    train := { pcSet := p.train.pcSet, start := some fastStart } }

/-- The event of R100 for a planned switch, once no L0 trigger of its tick can cancel it any more (R126). -/
def switchWindow (d : Dev) (n : Fin 16) : Dev := windowReduced d n (d.port n).link.mode (fld (d.port n).link.partner 23 16)

/-- Phase 6 ends on FEC lock, LOCKED received and a measured margin (R107, R124, R131). -/
def checkPhase6 (d : Dev) (n : Fin 16) : Dev :=
  let p := d.port n
  if inPhase p 6 && p.train.fecLock && p.train.locked && p.train.measured then
    let margin := p.link.marginCur.toInt
    let onward (d : Dev) : Dev :=
      (toPhase d n 7).modPort n fun p => { p with train := { p.train with svcRun := 0, armedRun := 0 } }
    if p.train.abbrev_ then
      let d := switchWindow d n
      if margin < 10 then derivedRetrain (nearCheck d n) n else onward d
    else if p.link.fast then if margin < 10 then failAttempt d n 10 else onward d
    else if margin < 20 then stepDown d n margin onward
    else onward d
  else d

/-- Phase 3 ends: the measured path, the precoder and the seeds go over; the coefficients are those that the updates of R145 have reached
(R107, R112, R576). -/
def enterPhase4 (r : TrainResult) (n : Fin 16) (d : Dev) : Dev :=
  let full := !(d.port n).link.fast
  let us := legalSeed d n true r.seedUs
  let ds := legalSeed d n false r.seedDs
  (toPhase d n 4).modPort n fun p => { p with
    line := { p.line with
      turn := r.turn, path := pathOf r.roundTrip r.turn.toNat, ntap := r.ntap, taps := r.taps, seedUs := us, seedDs := ds },
    train := { p.train with pcSet := p.train.pcSet + 1, acks := 0 },
    diag := { p.diag with il := if full then r.il else p.diag.il } }

/-- Phase 3 has what it needs: the sign of the correlation gives the polarity, and the error the predicted margin (R111, R117); in
a fast retrain it lasts at least 4 epochs, 153.6 µs (R124). -/
def downstreamTrainingDone (n : Fin 16) (r : TrainResult) (d : Dev) : Dev :=
  let p := d.port n
  if !inPhase p 3 then d
  else
    let d := if p.link.fast then d.reach (p.link.phaseAt + 38400) else d
    let margin := (s16 (marginOf p.link.mode r.errSq r.symbols 30)).toInt
    let d := d.modPort n fun p => { p with link := { p.link with polInv := decide (r.correlation < 0), marginCur := s16 margin } }
    if p.link.fast then if margin < 10 then failAttempt d n 10 else enterPhase4 r n d
    else if margin < 20 then stepDown d n margin (enterPhase4 r n)
    else enterPhase4 r n d

/-- Where the link partner began later than START, phase 3 is aligned to the superframe of START_ECHO (R108). -/
def alignStart (p : Port) (echo : Seq) : Port :=
  match p.train.start with
  | some u =>
    let late := (echo - u).toInt
    if p.link.phase == 3 && p.train.echoStart.isNone && decide (0 < late) then
      { p with
        train := { p.train with echoStart := some echo },
        link := { p.link with phaseAt := p.link.phaseAt + BitVec.ofInt 64 (late * 2400) } }
    else p
  | none => p

/-- The bits of a training status block from those of the line: polarity and training keystream removed (R105, R111). -/
def tsbOf (p : Port) (raw : BitVec 256) : BitVec 256 :=
  BitVec.ofNat 256 (scramble 256 (if p.link.polInv then ~~~raw else raw).toNat trainSeedDs)

/-- The measurement of an epoch, in units of 2^-8 tick, renews PATH where it moves it by 1 unit or more (R49). -/
def measurePath (roundTrip : Option Nat) (p : Port) : Port :=
  match roundTrip with
  | none => p
  | some t =>
    let twice := (t : Int) - p.line.turn.toNat
    if (twice - 2 * p.line.path.toNat).natAbs < 2 then p
    else { p with line := { p.line with path := pathOf t p.line.turn.toNat } }

/-- One training status block (R49, R105–R107, R113). -/
def trainingStatusBlock (n : Fin 16) (b : TsbLine) (d : Dev) : Dev :=
  let d := if inPhase (d.port n) 4 || inPhase (d.port n) 5 then d.modPort n (measurePath b.roundTrip) else d
  let p := d.port n
  let t := parseTsb (tsbOf p b.raw)
  if !(inPhase p 3 || inPhase p 4 || inPhase p 5) then d
  else if !t.crcOk || t.attempt != p.link.attempt.toNat then
    d.modPort n fun p => { p with train := { p.train with acks := 0 } }
  else
    let d := d.modPort n fun p => alignStart { p with line := { p.line with turn := t.turn } } t.startEcho
    if p.link.phase == 4 then
      let acks := if t.seedAck && t.pcAck == some p.train.pcSet then p.train.acks + 1 else 0
      let d := d.modPort n fun p => { p with train := { p.train with acks := acks } }
      if 2 ≤ acks then
        (toPhase d n 5).modPort n fun p => { p with train := { p.train with
          switch := some (placeUseq p.train.useq 8), echoed := false } }
      else d
    else if p.link.phase == 5 then
      d.modPort n fun p => { p with train := { p.train with
        echoed := p.train.echoed || (p.train.switch.isSome && t.swEcho == p.train.switch) } }
    else d

/-! ### Timeouts (R89, R107, R124, R125, R131) -/

def phaseTimeout (n : Fin 16) (d : Dev) : Dev :=
  match phaseEnd (d.port n) with
  | none => d
  | some t =>
    let p := d.port n
    if p.link.phase == 1 && p.train.stdBeacons.isSome then d
    else
      let d := d.reach t
      if p.train.abbrev_ then derivedRetrain (if p.link.phase == 6 then switchWindow d n else d) n
      else if p.link.fast then failAttempt d n 10
      else if p.link.phase == 1 then beaconWindowExpiry n d
      else failAttempt d n (if p.link.phase == 0 then 13 else p.link.phase)

def attemptTimeout (n : Fin 16) (d : Dev) : Dev :=
  let p := d.port n
  if p.link.st == .training && p.link.attemptTimer then failAttempt d n 8 else d

def retryBackoffExpiry (n : Fin 16) (d : Dev) : Dev :=
  if (d.port n).link.st == .down && (d.port n).link.backoff then
    startRule (d.modPort n fun p => { p with link := { p.link with backoff := false } }) n
  else d

/-- An L0 trigger: LINK_DROP, and a fast retrain (R36, R122, R198); a switch due in the same cycle is cancelled (R126). -/
def l0Trigger (d : Dev) (n : Fin 16) : Dev := retrain (moment d (srcPort n 8)) n false

/-- What a MODE_SWITCH of this tick left to undo (R126). -/
def switchedNow (d : Dev) (p : Port) : Option SwitchRec :=
  p.line.switched.filter fun x =>
    p.link.st == .training && (p.train.abbrev_ || p.train.dropStd != 0) && d.dt.running && x.tick == d.dt.dt

/-- A filter that the switch set to OUT has what it had (R126, R167). -/
def Filt.orBefore (f before : Filt) : Filt := if f.st == fOut then before else f

/-- An L0 trigger in the tick of a MODE_SWITCH, after it: the switch is cancelled, with what it had done, and the fast retrain takes place
at the mode before it (R126). -/
def undoSwitch (d : Dev) (n : Fin 16) (x : SwitchRec) : Dev :=
  let d := setLineMode (d.modPort n fun p => { p with line := { p.line with
    switched := none, dsEnd := none, rxSeed := p.line.oldSeed } }) n x.mode
  let d := d.modPort n fun p => { p with shr := { p.shr with
    ne := Vector.ofFn fun s => p.shr.ne[s.val].orBefore x.ne[s.val],
    fe := Vector.ofFn fun s => p.shr.fe[s.val].orBefore x.fe[s.val] } }
  l0Trigger (if x.counted then { d with hal := { d.hal with unblanked := d.hal.unblanked - 1 } } else d) n

/-- The port is UP for an L0 trigger: so it is in the tick in which it has entered Reef, which such a trigger goes before (R37). -/
def upForTrigger (d : Dev) (p : Port) : Bool :=
  p.link.st == .up ||
  ((p.link.st == .reef1 || p.link.st == .reef2) && d.dt.running && p.link.reefTick == some d.dt.dt)

def fecLockLossTimeout (n : Fin 16) (d : Dev) : Dev :=
  let p := d.port n
  if upForTrigger d p && p.link.mode.gletik then
    l0Trigger (d.modPort n fun p => { p with train := { p.train with fecLock := false } }) n
  else match switchedNow d p with
    | some x => if x.mode.gletik then undoSwitch d n x else d
    | none => d

/-! ### Reef exits (R135, R136) -/

/-- The wake tone of the hub ends: training framing, or the beacon of a full training (R135). -/
def wakeToneEnd (n : Fin 16) (d : Dev) : Dev :=
  let p := d.port n
  if p.link.st == .training && p.train.toneOn then
    d.modPort n fun p => { p with
      link := { p.link with phaseAt := d.dt.dt, attemptTimer := !p.link.fast },
      train := { p.train with toneOn := false, start := if p.link.fast then some fastStart else none } }
  else d

/-- A port leaves Reef (R36, R122, R135, R227, R230). A standard-mode port in REEF1 still has its link, so it passes through
TRAINING to UP in one step; from REEF2 the hub first sends its tone, or the TC10 wake-up pulse. -/
def exitReef (d : Dev) (n : Fin 16) (byHub : Bool) : Dev :=
  let p := d.port n
  match p.link.st with
  | .reef1 =>
    if p.link.mode.std then
      let d := enterUp (enterSt d n .training) n
      if p.std.lpiTx then d.emit (.quietRefresh n false) else d
    else retrain d n false
  | .reef2 =>
    if bit d.pwr.padPort n.val then d
    else
      let d := d.modPort n fun p => { p with link := { p.link with asleep := .none } }
      if p.link.mode.std then retrain (if byHub then d.emit (.tc10Pulse n) else d) n false
      else retrain (if byHub then d.emit (.wakeTone n wakeTonePeriod) else d) n byHub
  | _ => d

/-! ### The planned downshift's decision (R127, R129) -/

/-- The mode that a planned downshift goes to: 10GBASE-T1 only from GL6 (R127). -/
def plannedMode (p : Port) : Option LineMode :=
  match nextDown p with
  | some .t10g => if p.link.mode == .gl6 then some .t10g else none
  | m => m

/-- R127's standing conditions: DS_PLAN, UP in a Gletik mode, a lower ladder mode. -/
def mayPlan (p : Port) : Bool :=
  bit p.link.cfgNow 5 && p.link.st == .up && p.link.mode.gletik && (plannedMode p).isSome && p.line.dsTarget.isNone &&
  !p.line.dsBlocked

/-- Steps 1 and 2 of R129: the target, and the derived coefficients, set and seeds, whose values the rules leave open. A move to
10GBASE-T1 leaves them out. -/
def planDownshift (d : Dev) (n : Fin 16) : Dev :=
  let p := d.port n
  if !mayPlan p then d
  else
    match plannedMode p with
    | some .t10g => d.modPort n fun p => { p with line := { p.line with dsTarget := some .t10g, dsSent := 4, dsTries := 0 } }
    | some m =>
      let us := legalSeed d n true (Config.freeSeed d.free)
      let ds := legalSeed d n false (Config.freeSeed (d.free + 1))
      let taps := (List.range 24).map fun i => Config.freeTap (d.free + 2) i
      let k := d.free + 3
      let coefs := fitCoefs m ⟨(List.range (ecTaps m)).map (Config.freeCoef k), (List.range 40).map (Config.freeCoef (k + 1)),
        (List.range 2).map (Config.freeCoef (k + 2))⟩
      let d := { d with free := d.free + 6 }
      d.modPort n fun p => { p with
        line := { p.line with
          dsTarget := some m, dsSent := 0, dsTries := 0, dsSeedUs := us, dsSeedDs := ds, dsNtap := 24, dsTaps := taps, dsCoefs := coefs,
          dsPcSet := p.train.pcSet + 1 },
        train := { p.train with pcSet := p.train.pcSet + 1 } }
    | none => d

/-- TTC and DS_LEAD, both in units of 10 s (R127, R140, R604). A DS_LEAD outside 1–8,640 is taken as written (DESIGN CHOICE,
assumption 170). -/
def forecastDue (t : W64) (p : Port) : Bool :=
  p.diag.fcastValid && decide ((ttcNow t p.diag).toNat ≤ fld p.cfg.dsCfg 31 16)

/-- The second case of R127: 2^24 symbols are 16 windows. -/
def averageLow (p : Port) : Bool := p.rx.margins.length == 16 && decide (p.rx.margins.foldl (· + ·) 0 < 160)

/-- DS_REFUSED's 60 s end, and R127 is looked at again (R129). -/
def downshiftReevaluate (n : Fin 16) (d : Dev) : Dev :=
  if (d.port n).line.dsBlocked then
    let d := d.modPort n fun p => { p with line := { p.line with dsBlocked := false } }
    let p := d.port n
    if forecastDue d.dt.dt p || averageLow p then planDownshift d n else d
  else d

/-- FORECAST_LEAD_REACHED: the countdown of TTC comes to DS_LEAD (R127, R589). -/
def forecastLeadReached (n : Fin 16) (d : Dev) : Dev :=
  let p := d.port n
  if p.diag.fcastValid then
    let lead := fld p.cfg.dsCfg 31 16
    let d := d.modPort n fun p => { p with diag := { p.diag with
      ttc := BitVec.ofNat 24 (min (ttcNow d.dt.dt p.diag).toNat lead), plan := { p.diag.plan with ttcAt := d.dt.dt } } }
    planDownshift d n
  else d

/-- What a stretch of clocks leaves of the receiver, and the margin it measured (R117, R171). -/
def takeWindow (d : Dev) (n : Fin 16) (r : Port × RxWin) (margin : Int) : Dev :=
  let gain := if sliceOn d n then s16 (gainOf r.2) else 0x8000
  (d.setPort n r.1).modPort n fun p => { p with
    link := { p.link with marginCur := s16 margin },
    rx := { p.rx with margins := (margin :: p.rx.margins).take 16, winPoor := false, richWas := p.rx.rich, turns := [] },
    shr := { p.shr with gain := gain } }

/-- The end of a margin window, whose clocks the receiver has processed (R117, R142–R152, R163). -/
def marginUpdate (n : Fin 16) (window : List RxClock) (d : Dev) : Dev :=
  let st := (d.port n).link.st
  if st != .up && st != .training then d
  else
    let r := rxRun d n window
    let margin := (s16 (marginOf r.1.link.mode r.2.errSq r.2.count 78)).toInt
    let high := r.1.rx.rich == .high && !r.1.rx.winPoor
    let d := judgeAll (takeWindow d n r margin) n r.2
    if st == .up then
      let d := if high then d.modPort n fun p => { p with diag := { p.diag with plan := planMargin p.diag.plan margin } } else d
      let d := forceHeld (anchorRules d n margin high) n margin
      let p := d.port n
      let d := if p.link.mode.std then setLive d (srcPort n 0) (decide (margin < 10)) else d
      if averageLow p then planDownshift d n else d
    else
      checkPhase6 (d.modPort n fun p => { p with train := { p.train with
        measured := p.train.measured || p.link.phase == 6 } }) n

/-! ### The rows -/

def execRetryBackoffExpiry (n : Fin 16) (s : State) : Host.Outcome State Fault Refusal := onLive s (retryBackoffExpiry n)

/-- The operands of a preparation: rows of the port's own memories, and a code for every trim. -/
def prepOk (failing : List (Fin 8 × Nat × Nat)) (codes : List W8) : Bool :=
  (failing.all fun f => decide (f.2.1 < portArrays f.1.val) && decide (f.2.2 < 128)) && codes.length == trimCount

def execPreparationDone (n : Fin 16) (failing : List (Fin 8 × Nat × Nat)) (vref rext : Int) (codes : List W8) (s : State) :
    Host.Outcome State Fault Refusal :=
  onLiveIf (prepOk failing codes) s (preparationDone n failing vref rext codes)

def execBeaconFrame (n : Fin 16) (s : State) : Host.Outcome State Fault Refusal := onLive s (beaconFrame n)

def execAnswerFrame (n : Fin 16) (sync : W64) (info : BitVec 192) (s : State) : Host.Outcome State Fault Refusal :=
  onLive s (answerFrame n sync info)

def execBeaconWindowExpiry (n : Fin 16) (s : State) : Host.Outcome State Fault Refusal := onLive s (beaconWindowExpiry n)

def execPhaseTimeout (n : Fin 16) (s : State) : Host.Outcome State Fault Refusal := onLive s (phaseTimeout n)

def execAttemptTimeout (n : Fin 16) (s : State) : Host.Outcome State Fault Refusal := onLive s (attemptTimeout n)

def execTrainingStatusBlock (n : Fin 16) (tsb : TsbLine) (s : State) : Host.Outcome State Fault Refusal :=
  onLive s (trainingStatusBlock n tsb)

def execDownstreamTrainingDone (n : Fin 16) (r : TrainResult) (s : State) : Host.Outcome State Fault Refusal :=
  onLiveIf (decide (r.ntap.toNat ≤ 24) && r.taps.length == 24) s (downstreamTrainingDone n r)

def execFecLockLossTimeout (n : Fin 16) (s : State) : Host.Outcome State Fault Refusal := onLive s (fecLockLossTimeout n)

def execWakeToneEnd (n : Fin 16) (s : State) : Host.Outcome State Fault Refusal := onLive s (wakeToneEnd n)

def execMarginUpdate (n : Fin 16) (window : List RxClock) (s : State) : Host.Outcome State Fault Refusal :=
  onLive s (marginUpdate n window)

def execDownshiftReevaluate (n : Fin 16) (s : State) : Host.Outcome State Fault Refusal := onLive s (downshiftReevaluate n)

def execForecastLeadReached (n : Fin 16) (s : State) : Host.Outcome State Fault Refusal := onLive s (forecastLeadReached n)

end Sys2Proof.Machine
end

