-- ==== Sys2Proof/Machine/Oam.lean ====
section
/-! DEFINITION. OAM exchanges with the link partner, the writes to its Gletik control window, and entry to and exit from
Reef (R81–R83, R128–R136, R227–R231, R350, R487). -/
namespace Sys2Proof.Machine

/-! ### Exchanges (R83, R350) -/

/-- Exchanges that a port's OAM_SENDs hold. -/
def oamSends (p : Port) : Nat := (p.oam.live.filter fun x => x.op.isSome).length

/-- REG_READ and REG_WRITE wait for an answer; a VENDOR message goes out three times (R83). -/
def isRegType (type : W8) : Bool := type == 1 || type == 2
def OamX.isReg (x : OamX) : Bool := isRegType x.type

/-- A TAG that none of a list has, after the last one used. -/
def freeTag (taken : List W8) : Nat → W8 → W8
  | 0, t => t
  | k + 1, t => if taken.contains t then freeTag taken k (t + 1) else t

/-- The first LEN bytes of a payload, the others 0 (R81). -/
def cutPayload (len : W8) (payload : BitVec 352) : BitVec 352 :=
  let k := 8 * (44 - len.toNat)
  BitVec.ofNat 352 (payload.toNat / 2 ^ k * 2 ^ k)

/-- A new exchange. No live one has its TAG, and a VENDOR message does not take that of the VENDOR message before it (R83). -/
def addExchange (p : Port) (type len : W8) (payload : BitVec 352) (op : Option W16) : Port :=
  let live := p.oam.live.map (·.tag)
  let t := freeTag (match p.oam.sentVendor with
    | some v => if isRegType type then live else v :: live
    | none => live) 17 (p.oam.lastTag + 1)
  { p with oam := { p.oam with
      live := p.oam.live ++ [{ tag := t, type := type, len := len, payload := cutPayload len payload, op := op }], lastTag := t,
      sentVendor := if isRegType type then p.oam.sentVendor else some t } }

def dropExchange (p : Port) (tag : W8) : Port :=
  { p with oam := { p.oam with live := p.oam.live.filter fun x => x.tag != tag } }

/-- Copies still to send. -/
def OamX.unsent (x : OamX) : Bool := if x.isReg then x.sent == 0 else decide (x.sent < 3)

/-- What goes into the next container: a VENDOR message that has begun goes on, so that its three copies stand in consecutive service
codewords; otherwise the oldest exchange that has a copy to send. -/
def nextOam (l : List OamX) : Option OamX :=
  match l.find? fun x => !x.isReg && x.sent != 0 && x.unsent with
  | some x => some x
  | none => l.find? OamX.unsent

/-- The container of the next upstream service codeword, and the port after it. -/
def takeOam (d : Dev) (n : Fin 16) : Option (Nat × Nat × Nat × Nat) × Dev :=
  let p := d.port n
  match nextOam p.oam.live with
  | none => (none, d)
  | some x =>
    let bits := (x.type.toNat, x.tag.toNat, x.len.toNat, x.payload.toNat * 2 ^ 128)
    let x' := { x with sent := x.sent + 1 }
    let done := !x.isReg && x'.sent == 3
    let d := d.modPort n fun p => { p with oam := { p.oam with
      live := if done then p.oam.live.filter fun y => y.tag != x.tag
        else p.oam.live.map fun y => if y.tag == x.tag then x' else y } }
    let d := match x.op with
      | some h => if done then endOp d h stSuccess else d
      | none => d
    (some bits, d)

/-! ### The Gletik control window (R128) -/

/-- The hub's own write of a window register: address, data and a full mask. -/
def glkWrite (d : Dev) (n : Fin 16) (addr value : W32) : Dev :=
  d.modPort n fun p => addExchange p 2 12
    (BitVec.ofNat 352 (lineBits [(32, addr.toNat), (32, value.toNat), (32, 0xFFFFFFFF), (256, 0)])) none

/-- GLK_REEF for a level at a USEQ. -/
def reefWord (level : Nat) (u : Seq) : W32 := at_ 8 u.toNat ||| at_ 0 level

/-- Reef entry at a level is asked for, unless one is asked for or agreed already: u is the first multiple of 4 at least 8
superframes after the write (R133, R135). -/
def askReef (d : Dev) (n : Fin 16) (level : Nat) : Dev :=
  let p := d.port n
  if (reefPlan p).isSome then d
  else
    let d := glkWrite d n glkReefAddr (reefWord level (placeUseq p.train.useq 8))
    d.modPort n fun p => { p with line := { p.line with reefCancel := false, reefStay := false }, link := { p.link with reefRetry := false } }

/-- LEVEL = 0 withdraws an accepted entry (R136). -/
def cancelReef (d : Dev) (n : Fin 16) : Dev :=
  let d := d.modPort n fun p => { p with line := { p.line with reefCancel := true } }
  if cancelAsked (d.port n) then d else glkWrite d n glkReefAddr (reefWord 0 0)

/-- The answer to a GLK_REEF: status 0 accepts; anything else, and no answer, leaves the port where it is, to ask again (R133, R135). A port in
REEF1 whose entry to REEF2 has been withdrawn for a wake leaves REEF1 then (R136). -/
def reefAnswered (d : Dev) (n : Fin 16) (value : W32) (ok : Bool) : Dev :=
  let level := fld value 1 0
  if level == 0 then
    if ok then
      let cancelled := (d.port n).line.reefAt.isSome
      let stay := (d.port n).line.reefStay
      let d := d.modPort n fun p => { p with line := { p.line with reefAt := none, reefCancel := false, reefStay := false } }
      if cancelled && !stay && (d.port n).link.st == .reef1 then exitReef d n true else d
    else d
  else if ok then
    let cancel := (d.port n).line.reefCancel
    let d := d.modPort n fun p => { p with line := { p.line with
      reefAt := some (BitVec.ofNat 2 level, BitVec.ofNat 24 (fld value 31 8)) } }
    if cancel then cancelReef d n else d
  else d.modPort n fun p => { p with line := { p.line with reefCancel := false, reefStay := false }, link := { p.link with reefRetry := true } }

/-- The answer to a GLK_SWITCH: a refusal, or none, cancels the entry and repeats step 3 of R129, up to RETRY times. -/
def switchAnswered (d : Dev) (n : Fin 16) (ok : Bool) : Dev :=
  if ok then d
  else
    let d := dropEntries d fun e => e.ownOf n && e.action == 0x07
    let p := d.port n
    let tries := p.line.dsTries
    if tries ≤ fld p.cfg.dsCfg 11 8 then d
    else
      let d := portEvent d n 0x0013
        [BitVec.ofNat 8 (match p.line.dsTarget with
          | some m => m.code
          | none => 0), BitVec.ofNat 8 tries]
      d.modPort n fun p => { p with line := { p.line with dsTarget := none, dsSent := 0, dsTries := 0, dsBlocked := true } }

def glkAnswered (d : Dev) (n : Fin 16) (x : OamX) (ok : Bool) : Dev :=
  if x.addr == glkReefAddr then reefAnswered d n x.value ok else switchAnswered d n ok

/-- A READ_RESP or WRITE_RESP completes the exchange of its TAG (R83, R346). -/
def oamResponse (d : Dev) (n : Fin 16) (m : OamMsg) : Dev :=
  match (d.port n).oam.live.find? fun x => x.isReg && x.tag == m.tag && x.type.toNat + 2 == m.type with
  | none => d
  | some x =>
    let status := if m.type == 3 then m.byte 8 else m.byte 4
    let data : W32 := if m.type == 3 then m.word 4 else 0
    let d := d.modPort n fun p => dropExchange p x.tag
    match x.op with
    | some h => endOp d h stSuccess 0 data (status.setWidth 32)
    | none => glkAnswered d n x (status == 0)

/-- OAM_RX: one record, and one with CONT for bytes 32–59 (R356). -/
def oamRx (d : Dev) (n : Fin 16) (m : OamMsg) : Dev :=
  let bytes := (List.range 60).map m.byte
  let head : List W8 := [BitVec.ofNat 8 m.type, m.tag, BitVec.ofNat 8 m.len, 0]
  let d := portEvent d n 0x0014 (head ++ bytes.take 32)
  if 32 < m.len then
    eventTo d .pf0 d.stamp d.rpos 0x0014 (scopePort n) (head ++ bytes.drop 32) 0xFFFF false true
  else d

/-- One OAM message received (R82, R83). A REG_READ or REG_WRITE, which only the hub sends, is taken as a reserved TYPE: ignored and
counted (DESIGN CHOICE, assumption 171). -/
def oamReceived (d : Dev) (n : Fin 16) (m : OamMsg) : Dev :=
  if !m.v then d
  else if m.type == 3 || m.type == 4 then oamResponse d n m
  else if m.type == 5 then oamRx d n m
  else if 0x10 ≤ m.type ∧ m.type ≤ 0x3F then
    if (d.port n).oam.lastVendor == some m.tag then d
    else oamRx (d.modPort n fun p => { p with oam := { p.oam with lastVendor := some m.tag } }) n m
  else d.modPort n fun p => { p with oam := { p.oam with bad := p.oam.bad + 1 } }

/-- 200 µs without an answer: up to three more tries, then a timeout (R83). -/
def oamTimeout (n : Fin 16) (tag : W8) (d : Dev) : Dev :=
  match (d.port n).oam.live.find? fun x => x.isReg && x.tag == tag && x.sent != 0 with
  | none => d
  | some x =>
    if x.tries < 3 then
      d.modPort n fun p => { p with oam := { p.oam with
        live := p.oam.live.map fun y => if y.tag == tag then { y with tries := y.tries + 1, sent := 0 } else y } }
    else
      let d := d.modPort n fun p => dropExchange p tag
      match x.op with
      | some h => endOp d h stTimeout
      | none => glkAnswered d n x false

/-! ### Entry to Reef (R133, R135, R227, R228) -/

/-- The port enters Reef (R36): at u, or where its mode needs no agreement. A wake of the same tick goes first: the port is in TRAINING
(R37), which a standard-mode port leaves for UP in the same step (R227). -/
def enterReef (d : Dev) (n : Fin 16) (level : Nat) : Dev :=
  let d := d.modPort n saveSnapshot
  let p := d.port n
  if p.link.st == .up && d.dt.running && p.link.wakeTick == some d.dt.dt then
    if p.link.mode.std then enterUp (enterSt d n .training) n else retrain d n false
  else enterSt d n (if level == 2 then .reef2 else .reef1)

/-- REEF1 entry of an UP port by the rule of its mode. -/
def startReef1 (d : Dev) (n : Fin 16) : Dev :=
  let p := d.port n
  if p.link.st != .up then d
  else if p.link.mode.std then
    let d := enterReef d n 1
    let lpi := (d.port n).link.st == .reef1 && (d.port n).std.eee
    let d := d.modPort n fun p => { p with std := { p.std with lpiTx := lpi } }
    if lpi && !p.std.lpiTx then d.emit (.quietRefresh n true) else d
  else askReef d n 1

/-- REEF2 entry of a REEF1 port by the rule of its mode: a TC10 sleep request, or GLK_REEF with LEVEL 2. -/
def startReef2 (d : Dev) (n : Fin 16) : Dev :=
  let p := d.port n
  if p.link.st != .reef1 then d
  else if p.link.mode.std then
    if bit p.link.stdNow 22 && !p.std.handshake then
      (d.modPort n fun p => { p with std := { p.std with handshake := true }, link := { p.link with reefRetry := false } }).emit (.tc10Sleep n)
    else d
  else askReef d n 2

/-- PT_IDLE_T of idleness (R133, R487); a port that a refusal, or no answer, kept where it was asks again (R133, R135, R228). -/
def portIdleExpiry (n : Fin 16) (d : Dev) : Dev :=
  let p := d.port n
  match p.link.st with
  | .up => if bit p.cfg.pwrCfg 0 || p.link.reefRetry then startReef1 d n else d
  | .reef1 => if p.link.reefRetry then startReef2 d n else d
  | _ => d

/-- REEF2_T after entry to REEF1 (R487); REEF2_T = 0 disables it. -/
def reef2TimerExpiry (n : Fin 16) (d : Dev) : Dev :=
  let p := d.port n
  if bit p.cfg.pwrCfg 0 && fld p.cfg.pwrCfg 15 4 != 0 then startReef2 d n else d

/-! ### Wakes (R33, R135, R136, R231) -/

/-- A wake event or traffic for a port (R136): it leaves Reef; an entry agreed but not yet made is withdrawn, which a port in REEF1
waits for; a handshake under way is aborted. A wake that finds the port UP is remembered for its tick (R37). -/
def wakePort (d : Dev) (n : Fin 16) (byHub : Bool) : Dev :=
  let d := d.modPort n fun p => { p with
    std := { p.std with handshake := false },
    link := { p.link with wakeTick := if p.link.st == .up && d.dt.running then some d.dt.dt else p.link.wakeTick } }
  let p := d.port n
  match p.link.st with
  | .reef1 =>
    if p.line.reefAt.isSome then cancelReef (d.modPort n fun p => { p with line := { p.line with reefStay := false } }) n
    else exitReef d n byHub
  | .reef2 => exitReef d n byHub
  | .up =>
    if p.line.reefAt.isSome then cancelReef d n
    else if (reefAsked p).isSome then d.modPort n fun p => { p with line := { p.line with reefCancel := true } }
    else d
  | _ => d

/-- The link partner's wake tone (R135): any Reef state leaves by fast retrain, without a tone of the hub's. -/
def wakeToneDetected (n : Fin 16) (d : Dev) : Dev :=
  if (d.port n).link.mode.gletik then wakePort d n false else d

/-- One refresh superframe of REEF1, during which the receiver adapts: two consecutive uncorrectable ones raise REEF_EXIT for the
port (R134, R167). -/
def refreshSuperframe (n : Fin 16) (correctable : Bool) (rx : List RxClock) (d : Dev) : Dev :=
  let p := d.port n
  if p.link.st == .reef1 && p.link.mode.gletik then
    let bad := if correctable then 0 else p.line.refreshBad + 1
    let d := (d.setPort n (rxRun d n rx).1).modPort n fun p => { p with line := { p.line with refreshBad := bad } }
    if 2 ≤ bad then wakePort d n true else d
  else d

/-! ### The rows -/

def execOamTimeout (n : Fin 16) (tag : W8) (s : State) : Host.Outcome State Fault Refusal := onLive s (oamTimeout n tag)

def execPortIdleExpiry (n : Fin 16) (s : State) : Host.Outcome State Fault Refusal := onLive s (portIdleExpiry n)

def execReef2TimerExpiry (n : Fin 16) (s : State) : Host.Outcome State Fault Refusal := onLive s (reef2TimerExpiry n)

def execRefreshSuperframe (n : Fin 16) (correctable : Bool) (rx : List RxClock) (s : State) : Host.Outcome State Fault Refusal :=
  onLive s (refreshSuperframe n correctable rx)

end Sys2Proof.Machine
end

