-- ==== Sys2Proof/Machine/Halyard.lean ====
section
/-! DEFINITION. Device time, the master raster and the port rasters (R280–R299). -/
namespace Sys2Proof.Machine

/-! ### Device time (R280–R286) -/

def tick (t : DtSt) (coarseClock : Bool) : DtSt := ticks t coarseClock 1

/-- What an empty queue does in one step: one tick of DT, where DT runs (assumption 3). -/
def idleTick (d : Dev) : Dev :=
  if d.dt.running && powered d then { d with dt := tick d.dt (!lpllRuns d.clk) } else d

/-- DT comes to run from the RC oscillator (R282, R286). -/
def dtCoarse (d : Dev) : Dev :=
  if d.dt.running then { d with dt := { d.dt with coarse := true, unc := d.dt.unc + 20000000 } } else d

/-- DT_UNC (R312), in µs. -/
def dtUnc (t : DtSt) : Nat := if t.coarse then min ((t.unc + 9999999) / 10000000) 0xFFFFFFFF else 0

/-- The DT source in use (R283, R612). -/
def srcAct (d : Dev) : Nat :=
  if followRole d then 2
  else match fld d.dt.cfg 1 0 with
    | 1 => 1 | 2 => 2 | _ => 0

/-- DT_STAT (R311). -/
def dtStat (d : Dev) : W32 :=
  at_ 30 (srcAct d) ||| atB 29 d.dt.locked ||| atB 28 d.dt.coarse ||| at_ 16 d.dt.epoch.toNat ||| at_ 8 d.dt.ppsMiss.toNat

/-- LOCKED falls (R514: DT_UNLOCKED). -/
def dtUnlock (d : Dev) : Dev :=
  let was := d.dt.locked
  let d := { d with dt := { d.dt with locked := false } }
  if was && srcAct d != 0 then moment d 0x031 else d

/-- SLEW_MAX in ppb, and STEP_LIM in 2^-16 tick, reserved values as the device uses them (R310). -/
def slewMax (d : Dev) : Int :=
  let m := fld d.dt.cfg 23 16
  ((if 1 ≤ m ∧ m ≤ 50 then m else 10 : Nat) * 10000 : Nat)

def stepLim (d : Dev) : Int :=
  let m := fld d.dt.cfg 31 24
  ((if m == 0 then 1 else m : Nat) * 250 * 65536 : Nat)

/-- A PPS_IN edge of the selected polarity is captured (R284). -/
def ppsEdge (rising : Bool) (d : Dev) : Dev :=
  if d.dt.running && rising != bit d.dt.cfg 2 then
    { d with dt := { d.dt with
      caps := (d.dt.dt :: d.dt.caps).take 4, capCount := d.dt.capCount + 1, lastPps := d.stamp } }
  else d

/-- 1.5 s without a named edge (R284). -/
def ppsMiss (d : Dev) : Dev :=
  if srcAct d == 1 && d.dt.running then
    dtUnlock { d with dt := { d.dt with ppsMiss := satInc d.dt.ppsMiss } }
  else d

/-- The ticks after which abs(E) of the slew in progress has fallen below 40 ns (R284). -/
def slewTicks (t : DtSt) : Nat :=
  let rate := (t.adj - t.trim).natAbs * 65536
  let limit := 655360 * 1000000000
  if t.slew.natAbs < limit || rate == 0 then 0 else (t.slew.natAbs - limit) / rate + 1

/-- A slew has removed its error but for less than 40 ns (R284): DT stands where that happens. -/
def slewEnd (d : Dev) : Dev :=
  if d.dt.slew == 0 && d.dt.slewOp.isNone then d
  else
    let op := d.dt.slewOp
    let d := stopSlew { d with dt := ticks d.dt (!lpllRuns d.clk) (slewTicks d.dt) }
    match op with
    | some h => endOp d h stSuccess 0 (dtStat d)
    | none => d

/-! ### The master raster (R289–R294) -/

/-- The lock source in force (R289, R612). -/
def effLock (d : Dev) : Nat :=
  if followRole d then 2
  else match d.raster.lockSrc.toNat with
    | 1 => 1 | 2 => 2 | _ => 0

/-! ### Positions of calendar entries (R300) -/

/-- The DT of a RASTER or LINE trigger's position on the raster in force, in 2^-16 tick. -/
def posT16 (r : RasterReg) (t : Int) (e : CalEntry) : Int :=
  r.frameStart t e.frame + (fldW e.time 31 16 * r.lp.toNat + fldW e.time 15 0 * r.lp.toNat / 65536 : Nat)

/-- The tick that holds an instant. -/
def tickOf (t : Int) : W64 := BitVec.ofInt 64 (t / 65536)

def onRaster (e : CalEntry) : Bool := e.trig == 1 || e.trig == 2

/-- The fallback DTs keep up with the raster while it is available (R300): called before the raster changes. -/
def renewFallbacks (d : Dev) : Dev :=
  let one (e : CalEntry) : CalEntry := if onRaster e then { e with fallback := tickOf (posT16 d.raster d.t16 e) } else e
  if d.raster.avail then { d with hal := { d.hal with cal := d.hal.cal.map one } } else d

/-- Step 1 of R297 for the ports that waited for the master raster. -/
def startDue (d : Dev) : Dev :=
  d.eachPort fun d n =>
    if (d.port n).raster.startDue then
      sendSetFrame (d.modPort n fun p => { p with raster := { p.raster with startDue := false } }) n
    else d

/-- A state entered: HOLDOVER posts its event, and UNLOCKED under FSYNC_IN is RASTER_LOST (R291). -/
def setRaster (d : Dev) (st : RasterSt) : Dev :=
  let lost := st == .unlocked && effLock d == 1 && d.raster.set
  if d.raster.st == st then (if lost then d else setLive d 0x030 false)
  else
    let was := d.raster.avail
    let d := renewFallbacks d
    let d := { d with raster := { d.raster with st := st } }
    let d := if st == .holdover then eventBoth d 0x0003 0 [BitVec.ofNat 8 st.code] else d
    let d := if d.raster.avail && !was then startDue d else d
    setLive d 0x030 lost

/-- A free-run raster is FREE while it is set and DT is not coarse (R291). -/
def refreshFree (d : Dev) : Dev :=
  if effLock d == 0 then setRaster d (if d.raster.set && !d.dt.coarse then .free else .unlocked)
  else if !d.raster.set then setRaster d .unlocked
  else d

/-- Every LOCKED port raster enters STEERING (R293). -/
def unlockPorts (d : Dev) : Dev :=
  d.eachPort fun d n => d.modPort n fun p =>
    if p.raster.st == .locked then { p with raster := { p.raster with st := .steering, good := 0, bad := 0, tries := 0 } } else p

/-- SET_LINE goes to every port raster in use whose LP is out of date (R298). -/
def refreshLp (d : Dev) : Dev :=
  d.eachPort fun d n =>
    let p := d.port n
    if p.raster.st != .none && p.raster.lpSent != d.raster.lp && d.raster.set then sendSetLine d n else d

/-- A master frame starts: with OUT_MODE 0 the pulse on FSYNC_OUT begins (R294). -/
def startPulse (d : Dev) : Dev :=
  if d.raster.set && fld d.hal.fsyncCfg 15 14 == 0 then { d with hal := { d.hal with fsyncHigh := true, fsyncAt := d.dt.dt } } else d

/-- A step of the raster: an anchor, with the effect of R293 on the port rasters. -/
def reanchor (d : Dev) (anchor : Int) (frame : W32) : Dev :=
  let d := unlockPorts { d with raster := { d.raster with
    anchor := anchor, frame0 := frame, steps := satInc d.raster.steps } }
  if anchor ≤ d.t16 then startPulse d else d

/-- The frame whose predicted start lies nearest to an instant. -/
def nearestFrame (r : RasterReg) (t : Int) : W32 :=
  let len : Int := r.frameLen
  if len == 0 then r.frame0 else r.frame0 + BitVec.ofInt 32 ((t - r.anchor + len / 2) / len)

/-- R290 for one measured frame start: LP is slewed toward it by at most 200 ppm, by an amount the rules leave open, or the
raster re-anchors. The flag says that it re-anchored. -/
def followEdge (d : Dev) (m : Int) : Dev × Bool :=
  let r := d.raster
  let k := nearestFrame r m
  let f := r.frameStart m k
  let e := m - f
  if e.natAbs ≤ r.lp.toNat then
    let bound := r.lpNom.toNat / 5000
    let amount : Nat := if e == 0 then 0 else Config.freeNat d.free % (bound + 1)
    let lp : W32 := if 0 ≤ e then r.lpNom + BitVec.ofNat 32 amount else r.lpNom - BitVec.ofNat 32 amount
    (refreshLp { d with free := d.free + 1, raster := { r with anchor := f, frame0 := k, lp := lp } }, false)
  else (reanchor d m k, true)

/-- The measured frame start counts in ACQUIRE, LOCKED and HOLDOVER (R291). -/
def countEdge (d : Dev) (m : Int) (inLine : Bool) : Dev :=
  let r := d.raster
  match r.st with
  | .acquire =>
    let close := match r.lastEdge with
      | some x => decide ((m - x - r.frameLen).natAbs * 1000 ≤ r.frameLen)
      | none => false
    let n := if close then r.edges + 1 else 1
    let d := { d with raster := { r with edges := n, lastEdge := some m } }
    if 3 ≤ n then setRaster d .locked else d
  | .holdover =>
    let d := { d with raster := { r with lastEdge := some m } }
    if inLine then setRaster d .locked else d
  | .unlocked =>
    setRaster { d with raster := { r with edges := 1, lastEdge := some m } } .acquire
  | _ => { d with raster := { r with lastEdge := some m } }

/-- A measured frame start under FSYNC_IN or party-wall (R290, R291, R613). The flag says that the raster re-anchored. -/
def measuredStart (d : Dev) (m : Int) : Dev × Bool :=
  let r := d.raster
  if !r.set then (d, false)
  else
    let early := match r.lastEdge with
      | some x => decide (2 * (m - x) < r.frameLen)
      | none => false
    if early then ({ d with raster := { r with edgeBad := satInc r.edgeBad } }, false)
    else
      let inLine := decide ((m - r.frameStart m (nearestFrame r m)).natAbs ≤ r.lp.toNat)
      let x := followEdge d m
      (countEdge x.1 m inLine, x.2)

/-- The fields of a raster come into force (R292), with an anchor for its FRAME0. -/
def loadRaster (d : Dev) (p : RasterParams) (anchor : Int) : Dev :=
  let src : BitVec 2 := p.lockSrc.setWidth 2
  let d := renewFallbacks d
  let d := { d with raster := { d.raster with
    lp := p.lp, lpNom := p.lp, lines := p.lines, first := p.first, last := p.last, lockSrc := src,
    holdFrames := p.holdFrames, anchor := anchor, frame0 := p.frame0, edges := 0, lastEdge := none, next := none } }
  let d := if effLock d == 0 then refreshFree d else setRaster d .acquire
  refreshLp (unlockPorts d)

/-- A RASTER_SET takes over, and its command completes (R292). -/
def takeOver (d : Dev) (p : RasterParams) (op : Option W16) (anchor : Int) : Dev :=
  let d := startPulse (loadRaster d p anchor)
  match op with
  | some h => endOp d h stSuccess
  | none => d

/-- The first frame start of a raster at or after an instant: its time and its frame. -/
def firstStart (p : RasterParams) (t : Int) : Int × W32 :=
  let a : Int := (p.anchor.toNat * 65536 : Nat)
  let len : Int := (p.lines.toNat * p.lp.toNat : Nat)
  if len == 0 then (a, p.frame0)
  else
    let j := (t - a + len - 1) / len
    (a + j * len, p.frame0 + BitVec.ofInt 32 j)

/-- The DT of an instant, rounded up to a whole tick. -/
def dtOf (t : Int) : W64 := BitVec.ofInt 64 ((t + 65535) / 65536)

/-- RASTER_TAKEOVER: a free-run or party-wall raster takes over at its own first frame start; under FSYNC_IN the first
accepted edge does it (R292). -/
def rasterTakeover (d : Dev) : Dev :=
  match d.raster.next with
  | some (p, op) =>
    if p.lockSrc == 1 && !followRole d then d
    else
      let s := firstStart p d.t16
      takeOver (d.reach (dtOf s.1)) p op (p.anchor.toNat * 65536 : Nat)
  | none => d

/-- A measured frame start less than half a frame after the last accepted one (R290). -/
def tooEarly (r : RasterReg) (m : Int) : Bool :=
  match r.lastEdge with
  | some x => decide (2 * (m - x) < r.frameLen)
  | none => false

/-- An edge on FSYNC_IN (R289, R290, R292). The flag says that the raster re-anchored or was taken over. -/
def fsyncEdge (d : Dev) (rising : Bool) : Dev × Bool :=
  if !d.dt.running || rising == bit d.hal.fsyncCfg 13 then (d, false)
  else
    let d := { d with dt := { d.dt with lastFsync := d.stamp } }
    let m : Int := ((d.dt.dt.toNat : Int) + d.hal.fsyncOfs.toInt) * 65536
    match d.raster.next with
    | some (p, op) =>
      if p.lockSrc == 1 && !followRole d then
        if effLock d == 1 && d.raster.set && tooEarly d.raster m then
          ({ d with raster := { d.raster with edgeBad := satInc d.raster.edgeBad } }, false)
        else
        let d := takeOver d p op m
        ({ d with raster := { d.raster with edges := 1, lastEdge := some m } }, true)
      else if effLock d == 1 then measuredStart d m else (d, false)
    | none => if effLock d == 1 then measuredStart d m else (d, false)

/-- No edge for 1.5 frame periods (R291). -/
def rasterEdgeTimeout (d : Dev) : Dev := if d.raster.st == .locked && effLock d != 0 then setRaster d .holdover else d

/-- HOLD_FRAMES frames without an edge (R291). -/
def rasterHoldoverExpiry (d : Dev) : Dev := if d.raster.st == .holdover then setRaster d .unlocked else d

/-- A master frame starts (R294). -/
def masterFrameStart (d : Dev) : Dev :=
  if d.raster.set && fld d.hal.fsyncCfg 15 14 == 0 then
    let k := (d.raster.posAt d.t16).frame + 1
    startPulse (d.reach (dtOf (d.raster.frameStart d.t16 k)))
  else d

/-- OUT_WIDTH, whose reserved value is taken as 250 (R318). -/
def outWidth (d : Dev) : Nat := let w := fld d.hal.fsyncCfg 31 16; if w == 0 then 250 else w

/-- The pulse ends OUT_WIDTH ticks after its rising edge (R294). -/
def fsyncOutPulseEnd (d : Dev) : Dev :=
  if d.hal.fsyncHigh then
    let d := d.reach (d.hal.fsyncAt + BitVec.ofNat 64 (outWidth d))
    { d with hal := { d.hal with fsyncHigh := false } }
  else d

/-- The instants that a port remembers move with a step of DT, so that the time since each stays what it is. -/
def Port.moveTime (k : W64) (e : Int) (p : Port) : Port :=
  let o (t : Option W64) : Option W64 := t.map (· + k)
  let s (x : Stamp) : Stamp := { x with dt := x.dt + k }
  let f (x : Filt) : Filt := { x with since := x.since + k }
  let pair (x : W64 × W64) : W64 × W64 := (x.1 + k, x.2 + k)
  { p with
    link := { p.link with
      phaseAt := p.link.phaseAt + k, exitTick := o p.link.exitTick, wakeTick := o p.link.wakeTick, fenceTick := o p.link.fenceTick },
    line := { p.line with
      stampUs := s p.line.stampUs, dsEnd := o p.line.dsEnd, 
      switched := p.line.switched.map fun x => { x with tick := x.tick + k, ne := vmap x.ne f, fe := vmap x.fe f } },
    rx := { p.rx with
      renewAt := p.rx.renewAt + k, revertAt := p.rx.revertAt.map (· + k), turns := p.rx.turns.map fun x => (x.1 + k, x.2) },
    shr := { p.shr with
      pub := p.shr.pub.map fun x => (x.1 + 3 * k.toInt, x.2),
      ne := vmap p.shr.ne f, fe := vmap p.shr.fe f, leaves := p.shr.leaves.map fun l => { l with since := l.since + k } },
    rtx := { p.rtx with
      dsAnchor := p.rtx.dsAnchor.map fun a => (a.1, a.2 + e), oldAnchor := p.rtx.oldAnchor.map fun a => (a.1, a.2 + e),
      burst := p.rtx.burst.map fun b => (b.1 + k, b.2.1, b.2.2.1, b.2.2.2.1, b.2.2.2.2 + k), burstEnd := o p.rtx.burstEnd },
    fresh := { p.fresh with lastAt := vmap p.fresh.lastAt (· + k) },
    diag := { p.diag with plan := { p.diag.plan with
      points := p.diag.plan.points.map fun x => { x with time := x.time + k },
      bursts := p.diag.plan.bursts.map fun x => { x with time := x.time + k },
      upSince := o p.diag.plan.upSince, ttcAt := p.diag.plan.ttcAt + k, proposedAt := o p.diag.plan.proposedAt } },
    raster := { p.raster with
      sof := vmap p.raster.sof fun x => (s x.1, x.2), eof := p.raster.eof.map fun x => (x.1 + k, x.2), win := p.raster.win.map pair,
      dirty := p.raster.dirty.map pair, opened := p.raster.opened + e } }

/-- A step of DT (R281, R284, R285, R344): the live deadlines and every remembered instant move with it, EPOCH, the TIME_STEP event,
and the raster: free-run steps with DT, other sources keep their frames where they are. -/
def stepDt (d : Dev) (e : Int) : Dev :=
  let before := d.dt.dt
  let t := d.t16 + e
  let d := { d with dt := { d.dt with
    dt := BitVec.ofInt 64 (t / 65536), frac := BitVec.ofInt 16 (t % 65536), epoch := d.dt.epoch + 1 } }
  let k := d.dt.dt - before
  let d := { d with
    host := { d.host with ops := d.host.ops.map fun o => { o with deadline := o.deadline + k } },
    ports := vmap d.ports (Port.moveTime k e),
    sys := { d.sys with
      wakeAt := d.sys.wakeAt.map fun x => (x.1 + k, x.2), sparedAt := d.sys.sparedAt.map fun x => (x.1 + k, x.2) },
    clk := { d.clk with cleanAt := d.clk.cleanAt + k, refAt := d.clk.refAt.map (· + k) },
    pair := { d.pair with echoAt := d.pair.echoAt + k, sentAt := d.pair.sentAt.map fun x => (x.1, x.2 + e) },
    lanes := vmap d.lanes fun (l : LaneSt) => { l with targetAt := l.targetAt + k },
    bist := { d.bist with privAt := d.bist.privAt.map (· + k) }, hal := { d.hal with fsyncAt := d.hal.fsyncAt + k } }
  let d := eventBoth d 0x0002 0 (leBytes 8 before.toNat ++ leBytes 8 d.dt.dt.toNat)
  if effLock d == 0 then
    if d.raster.set then unlockPorts { d with raster := { d.raster with steps := satInc d.raster.steps } } else d
  else { d with raster := { d.raster with anchor := d.raster.anchor + e, lastEdge := d.raster.lastEdge.map (· + e) } }

/-- COARSE and DT_UNC are cleared (R286). -/
def clearCoarse (d : Dev) : Dev := refreshFree { d with dt := { d.dt with coarse := false, unc := 0 } }

/-- A slew of E begins: the rate changes by SLEW_MAX (R284). The trim that it leaves is the rules' to leave open once an edge has been
named before; it stays within half of SLEW_MAX of the old one. -/
def startSlew (d : Dev) (e : Int) (op : Option W16) : Dev :=
  let rate := slewMax d
  let again := d.dt.locked
  let trim : Int := if again then d.dt.trim + (Config.freeNat d.free : Int) % (rate + 1) - rate / 2 else d.dt.trim
  { d with
    free := if again then d.free + 1 else d.free,
    dt := { d.dt with
      slew := e * 1000000000, slewOp := op, trim := trim, adj := if 0 ≤ e then d.dt.trim + rate else d.dt.trim - rate } }

/-! ### Port rasters (R296–R299) -/

/-- The time of one codeword in DT ticks (R45). -/
def cwTicks : LineMode → Nat
  | .gl12 => 60 | .gl6 => 120 | _ => 30

/-- The line mode of the codewords that the reorder buffer holds: the old link's while it drains (R131, R198). -/
def rtxMode (p : Port) : LineMode := if p.rtx.draining then p.link.laneMode else p.link.mode

/-- A(c): the DT at which the last symbol of a slot is due, by the loop timing (R184). -/
def dueAt (p : Port) (seq : Seq) (slot : Nat) : Option W64 :=
  (if p.rtx.draining then p.rtx.oldAnchor else p.rtx.dsAnchor).map fun a =>
    let k : Int := ((seq - a.1).toInt * 16 + slot + 1) * cwTicks (rtxMode p)
    tickOf (a.2 + k * 65536)

/-- Downstream superframes in one alignment epoch (R45). -/
def perEpoch : LineMode → Nat
  | .gl12 => 10 | .gl6 => 5 | _ => 20

/-- The instant at which the downstream superframe aligned to an epoch that departs now begins at the hub's pins (R48, R49). -/
def epochReturn (d : Dev) (p : Port) : Int := d.t16 + (2 * p.line.path.toNat + p.line.turn.toNat) * 256

def tolLines (c : PortCfg) : Nat := let t := fld c.rasterCfg 23 16; if t == 0 then 2 else t
def shiftLines (c : PortCfg) : Nat := let t := fld c.rasterCfg 15 8; if t == 0 then 16 else t

/-- SET_FRAME again, at which DELAY is learned anew with DELAY_AUTO = 1 (R297 step 7, R323). -/
def setFrameAgain (d : Dev) (n : Fin 16) : Dev :=
  sendSetFrame (d.modPort n fun p => { p with raster := { p.raster with learned := p.raster.learned && !bit p.cfg.rasterCfg 30 } }) n

/-- Step 7 of R297: SET_FRAME again; after three without lock, the fault, and a retry every 10 s (step 8). -/
def steerAgain (d : Dev) (n : Fin 16) : Dev :=
  let p := d.port n
  if p.raster.retry then d
  else if 3 ≤ p.raster.tries then
    let d := d.modPort n fun p => { p with raster := { p.raster with retry := true, deltas := [], good := 0 } }
    setLive d (srcPort n 7) true
  else setFrameAgain d n

def lockRaster (d : Dev) (n : Fin 16) : Dev :=
  let d := d.modPort n fun p => { p with raster := { p.raster with
    st := .locked, good := 0, bad := 0, tries := 0, retry := false, deltas := [] } }
  setLive d (srcPort n 7) false

/-- The mean of the eight offsets becomes DELAY, in 2^-8 tick (R297 step 3); for a mean that the unsigned field cannot show, what
it shows is the rules' to leave open. -/
def learnDelay (d : Dev) (n : Fin 16) (l : List Int) : Dev :=
  let mean := (l.foldl (· + ·) 0) / 2048
  let fits := decide (0 ≤ mean ∧ mean < 2 ^ 32)
  let delay := if fits then BitVec.ofInt 32 mean else BitVec.ofNat 32 (Config.freeNat d.free)
  let d := { d with free := if fits then d.free else d.free + 1 }
  let d := d.modPort n fun p => { p with
    cfg := { p.cfg with rasterDelay := delay }, raster := { p.raster with learned := true } }
  lockRaster d n

def spread (l : List Int) : Nat := ((l.foldl max (l.headD 0)) - (l.foldl min (l.headD 0))).natAbs

/-- Steps 2–7 of R297 for one mark accepted for steering. -/
def steerMark (d : Dev) (n : Fin 16) (m : Int) (frame : W32) : Dev :=
  let p := d.port n
  let r := d.raster
  let lp := r.lp.toNat
  let tol := tolLines p.cfg * lp
  let delta0 := m - r.frameStart d.t16 frame
  let delta := delta0 - (p.cfg.rasterDelay.toNat * 256 : Nat)
  let auto := bit p.cfg.rasterCfg 30
  let now := (r.posAt d.t16).frame
  let ofs := if lp == 0 then 0 else max (-524288) (min 524287 (delta * 16 / (lp : Int)))
  let d := d.modPort n fun p => { p with raster := { p.raster with offset := BitVec.ofInt 20 ofs } }
  match p.raster.st with
  | .none => d
  | .locked =>
    if delta.natAbs ≤ tol then d.modPort n fun p => { p with raster := { p.raster with bad := 0 } }
    else if p.raster.bad + 1 < 2 then d.modPort n fun p => { p with raster := { p.raster with bad := p.raster.bad + 1 } }
    else d.modPort n fun p => { p with raster := { p.raster with st := .steering, good := 0, bad := 0, tries := 0 } }
  | .steering =>
    if p.raster.startDue || decide ((now - p.raster.k).toInt < 0) && p.raster.tries != 0 then d
    else if (frame - now).toInt < -2 ∨ 2 < (frame - now).toInt then steerAgain d n
    else if (frame - p.raster.k).toInt < 0 then d
    else if auto && !p.raster.learned then
      let l := p.raster.deltas ++ [delta0]
      if l.length < 8 then d.modPort n fun p => { p with raster := { p.raster with deltas := l } }
      else if spread l ≤ tol then learnDelay d n l
      else steerAgain d n
    else if delta.natAbs ≤ tol then
      if p.raster.good + 1 < 3 then d.modPort n fun p => { p with raster := { p.raster with good := p.raster.good + 1 } }
      else lockRaster d n
    else
      let d := d.modPort n fun p => { p with raster := { p.raster with good := 0 } }
      if shiftLines p.cfg * lp < delta.natAbs then steerAgain d n
      else
        let free := match p.raster.lastCmd with
          | some f => decide (2 ≤ (now - f).toInt)
          | none => true
        if free then
          d.modPort n fun p =>
            let p := sendRlc d p 2 (rlcData 0 ((-delta) % 2 ^ 80).toNat)
            { p with raster := { p.raster with lastCmd := some now } }
        else d

/-- A start-of-frame or end-of-frame mark with its time M (R296, R299, R309). While the master raster is not available the steps of
R297 pause, and PT_RASTER_STAT.OFFSET keeps its last Δ (DESIGN CHOICE, assumption 203). -/
def rasterMark (d : Dev) (n : Fin 16) (type : BitVec 3) (stream : Fin 4) (frame : W32) (m : W64) : Dev :=
  let p := d.port n
  let mine := fld p.cfg.rasterCfg 25 24 == stream.val
  let clean := !p.raster.dirty.any fun x => decide (0 < (m - x.1).toInt) && decide ((m - x.2).toInt ≤ usTicks 2000)
  let ok := p.link.st == .up && clean
  if type == 1 then
    if mine && ok then d.modPort n fun p => { p with raster := { p.raster with eof := some (m, frame) } } else d
  else if type == 0 then
    let d := d.modPort n fun p => { p with raster := { p.raster with
      sof := p.raster.sof.set stream.val (⟨m, 0, d.dt.coarse⟩, frame) } }
    if mine && ok then
      let d := d.modPort n fun p => { p with raster := { p.raster with
        win := match p.raster.eof with
          | some (e, j) => if frame == j + 1 then some (e, m) else p.raster.win
          | none => p.raster.win,
        eof := none } }
      if d.raster.avail then steerMark d n (m.toNat * 65536 : Nat) frame else d
    else if mine then d.modPort n fun p => { p with raster := { p.raster with eof := none } }
    else d
  else d

/-- R297 step 9, which pauses with the others while the master raster is not available. -/
def portRasterTimeout (n : Fin 16) (d : Dev) : Dev :=
  if !d.raster.avail then d else
  let d := d.modPort n fun p => { p with raster := { p.raster with st := .none, retry := false, deltas := [], startDue := false } }
  setLive d (srcPort n 7) false

/-- The 10 s of R297 step 8. -/
def rasterLockRetry (n : Fin 16) (d : Dev) : Dev :=
  let p := d.port n
  if p.raster.retry && p.raster.st == .steering && d.raster.avail then
    setFrameAgain (d.modPort n fun p => { p with raster := { p.raster with retry := false, tries := 2 } }) n
  else d

/-- The length of the blanking window in lines (R288). -/
def blankLines (r : RasterReg) : Nat :=
  if r.first.toNat ≤ r.last.toNat then r.last.toNat + 1 - r.first.toNat else r.lines.toNat - r.first.toNat + r.last.toNat + 1

/-- The first opening of a port's received blanking at or after an instant, and its length, in 2^-16 tick (R299). -/
def nextBlank (d : Dev) (n : Fin 16) (t : Int) : Option (Int × Nat) :=
  let p := d.port n
  let r := d.raster
  let len : Int := r.frameLen
  if !r.set then none
  else match p.raster.st with
    | .none => none
    | .locked =>
      let base := r.anchor + (r.first.toNat * r.lp.toNat : Nat) + (p.cfg.rasterDelay.toNat * 256 : Nat)
      some (base + (t - base + len - 1) / len * len, blankLines r * r.lp.toNat)
    | .steering =>
      p.raster.win.map fun w =>
        let base : Int := (w.1.toNat * 65536 : Nat)
        (base + (t - base + len - 1) / len * len, (w.2 - w.1).toNat * 65536)

/-! ### The rows -/

def execPpsEdge (rising : Bool) (s : State) : Host.Outcome State Fault Refusal := onLive s (ppsEdge rising)
def execPpsMiss (s : State) : Host.Outcome State Fault Refusal := onLive s ppsMiss
def execSlewEnd (s : State) : Host.Outcome State Fault Refusal := onLive s slewEnd
def execRasterEdgeTimeout (s : State) : Host.Outcome State Fault Refusal := onLive s rasterEdgeTimeout
def execRasterHoldoverExpiry (s : State) : Host.Outcome State Fault Refusal := onLive s rasterHoldoverExpiry
def execMasterFrameStart (s : State) : Host.Outcome State Fault Refusal := onLive s masterFrameStart
def execFsyncOutPulseEnd (s : State) : Host.Outcome State Fault Refusal := onLive s fsyncOutPulseEnd
def execPortRasterTimeout (n : Fin 16) (s : State) : Host.Outcome State Fault Refusal := onLive s (portRasterTimeout n)
def execRasterLockRetry (n : Fin 16) (s : State) : Host.Outcome State Fault Refusal := onLive s (rasterLockRetry n)

end Sys2Proof.Machine
end

