-- ==== Sys2Proof/Machine/Lanes.lean ====
section
/-! DEFINITION. The host lanes: what they send, Byham markers and credit, upstream blocks, bring-up, loopbacks, faults and
sparing (R237–R279). -/
namespace Sys2Proof.Machine

/-! ### Power of the lane domains (R271, R480, R499, R502) -/

/-- A fault that leads to sparing is live. -/
def laneBad (d : Dev) (m : Fin 20) : Bool := d.flt.lane[m.val].live &&& 7 != 0

/-- A reserved spare is free when no such fault of it is left (R268). -/
def freeReserved (d : Dev) (m : Fin 20) : Dev := if laneBad d m then d else d.modLane m fun l => { l with reserved := none }

/-- A lane whose conditions no longer hold because it is off. -/
def dropLaneFaults (d : Dev) (m : Fin 20) : Dev :=
  let g := d.flt.lane[m.val]
  freeReserved (setGroup d (.lane m) { g with hwLive := 0 }) m

/-- A lane at the reset of its domain, with the registers that the Cellar restores (R12, R499). -/
def reloadLane (d : Dev) (m : Fin 20) : Dev :=
  let l := d.lane m
  let on := bit l.cfg 31
  d.setLane m { (LaneSt.reset m) with
    cfg := l.cfg, txeq := l.txeq, rxCfg := l.rxCfg, port := l.port, reserved := l.reserved, target := l.target,
    rx := if on then .squelch else .off }

def powerLaneOn (d : Dev) : Dev :=
  if d.pwr.laneOn then d
  else
    let d := { d with pwr := { d.pwr with laneOn := true, padLane := !bit d.pwr.cfg 2 && d.pwr.padLane } }
    lowLanes.foldl (fun d m => relane (reloadLane d m) m) d

def powerPwOn (d : Dev) : Dev :=
  if d.pwr.pwOn then d
  else
    let d := { d with pwr := { d.pwr with pwOn := true, padPw := !bit d.pwr.cfg 2 && d.pwr.padPw } }
    pwLanes.foldl (fun d m => relane (reloadLane d m) m) d

def stopLane (d : Dev) (m : Fin 20) : Dev :=
  dropLaneFaults (d.modLane m fun l => { l with rx := .off, good := 0, bad := 0, hostPort := 0x1F, hostLane := none }) m

def powerLaneOff (d : Dev) : Dev :=
  lowLanes.foldl stopLane { d with pwr := { d.pwr with laneOn := false, padLane := true } }

/-- The counters of the PWL block reset with domain PW (R621–R625). -/
def powerPwOff (d : Dev) : Dev :=
  pwLanes.foldl stopLane { d with
    pwr := { d.pwr with pwOn := false, padPw := true },
    pair := { d.pair with takeovers := 0, hbBad := 0, hbMiss := 0 } }

/-- A lane domain with no lane enabled is off (R479). -/
def idleDomains (d : Dev) : Dev :=
  let any (ms : List (Fin 20)) := ms.any fun m => bit (d.lane m).cfg 31
  let d := if d.pwr.laneOn && !any lowLanes then powerLaneOff d else d
  if d.pwr.pwOn && !any pwLanes then powerPwOff d else d

/-! ### Sparing (R263–R269) -/

/-- A spare that port n could take. -/
def spareFor (d : Dev) (n : Fin 16) (m : Fin 20) : Bool :=
  let l := d.lane m
  l.port.isNone && l.target.isNone && bit l.cfg 31 && laneDomainOn d m && !laneBad d m &&
  (l.reserved.isNone || l.reserved == some n)

/-- A port's LANE_SPARE in progress. -/
def sparing (d : Dev) (n : Fin 16) : Bool :=
  d.host.ops.any fun o => o.final.isNone && o.started && o.isPort n && match o.cmd with
    | .laneSpare .. => true
    | _ => false

/-- The stream of a port moves to a lane, with the event of R266; the number of blocks lost is the rules' to leave open. -/
def moveLane (d : Dev) (n : Fin 16) (dest : Fin 20) : Dev :=
  let old := (d.port n).lane
  if old == dest then d
  else
    let lost := Config.freeNat d.free % 65536
    let d := { d with free := d.free + 1 }
    let idle := laneTx d dest == .idle
    let marks := (d.lane old).marks
    let d := d.modLane old fun l => { l with
      port := none, marks := [], waiting := false, blkLost := satAdd l.blkLost lost,
      reserved := if 16 ≤ old.val && laneBad d old then some n else none }
    let d := d.modLane dest fun l => { l with
      port := some n, reserved := none, target := none, marks := marks, cfg := l.cfg &&& 0xFF1F_FFFF }
    let d := d.modPort n fun p => { p with lane := dest }
    let d := relane (relane d dest) old
    let d := if idle then wakeLane d dest
      else if (d.lane dest).coding == 1 && laneTx d dest != .off && laneTx d dest != .idle then
        let r := markerOut d dest
        emitBits r.2 dest r.1
      else d
    let payload := [BitVec.ofNat 8 n.val, BitVec.ofNat 8 old.val, BitVec.ofNat 8 dest.val, 0] ++ leBytes 4 lost
    portEvent d n 0x0020 payload true

/-- A LANE_SPARE that named a spare in this very tick gives way to automatic sparing, and is rejected (R269). -/
def yieldSpare (d : Dev) (x : Fin 20) : Dev :=
  let l := d.lane x
  match l.target with
  | some h => if l.targetAt == d.dt.dt then endOp (d.modLane x fun l => { l with target := none }) h stBusy else d
  | none => d

/-- Of two lanes that fault in one tick the lower one has HL16: a port that a higher lane sent there in this tick goes on to HL17
(R269). -/
def yieldLower (d : Dev) (m : Fin 20) : Dev :=
  match d.sys.sparedAt with
  | some (t, k, o) =>
    if t == d.dt.dt && decide (m.val < k.val) && (d.port o).lane == 16 && spareFor d o 17 then moveLane d o 17 else d
  | none => d

/-- The port of a lane goes to a free spare. -/
def spareAuto (d : Dev) (n : Fin 16) (m : Fin 20) : Dev :=
  let d := yieldLower d m
  match [(16 : Fin 20), 17].find? fun x => x != m && spareFor (yieldSpare d x) n x with
  | some x =>
    let d := moveLane (yieldSpare d x) n x
    if x.val == 16 then { d with sys := { d.sys with sparedAt := some (d.dt.dt, m, n) } } else d
  | none => setLive d (srcPort n 9) true

/-- A fault that leads to sparing has been raised on a lane (R266, R267); automatic sparing waits for a LANE_SPARE of the port to
complete (R269). -/
def autoSpare (d : Dev) (m : Fin 20) : Dev :=
  match (d.lane m).port with
  | none => d
  | some n =>
    if (d.lane m).coding != 1 || !bit d.sys.hlSpare 0 then setLive d (srcPort n 9) true
    else if sparing d n then d.modLane m fun l => { l with waiting := true }
    else spareAuto d n m

/-- A LANE_SPARE of a port is over without a move: what waited for it follows (R269). -/
def spareAgain (d : Dev) (n : Fin 16) : Dev :=
  let m := (d.port n).lane
  if (d.lane m).waiting then autoSpare (d.modLane m fun l => { l with waiting := false }) m else d

/-- What follows an occurrence of a source, where it is one of the lane faults that lead to sparing (R263, R266, R524, R525). -/
def spareOn (d : Dev) (src : BitVec 10) : Dev :=
  match srcScope src with
  | some (.lane m) => if srcBit src < 3 then autoSpare d m else d
  | _ => d

/-- Source k of a lane is raised, and sparing follows. -/
def raiseLane (d : Dev) (m : Fin 20) (k : Nat) : Dev :=
  if isLive d (srcLane m k) then d else autoSpare (setLive d (srcLane m k) true) m

/-- A fault of a lane that leads to sparing ends (R268). -/
def endLaneFault (d : Dev) (m : Fin 20) (k : Nat) : Dev := freeReserved (setLive d (srcLane m k) false) m

/-- Blocks discarded for stuff bits raise STUFF_OVR (R249, R263). -/
def noteOverrun (d : Dev) (m : Fin 20) : Dev :=
  if (d.lane m).overrun then moment (d.modLane m fun l => { l with overrun := false }) (srcLane m 3) else d

/-- A LANE_SPARE completes: its target is LOCKED (R268). -/
def finishSpare (d : Dev) (m : Fin 20) : Dev :=
  match (d.lane m).target, laneUser d m with
  | some h, some n =>
    let d := setLive (moveLane d n m) (srcPort n 9) false
    endOp d h stSuccess
  | _, _ => d

/-- A LANE_SPARE reaches its deadline: its target is a spare again, in the coding of one, and what waited for the command follows
(R265, R269). -/
def timeoutSpare (d : Dev) (h : W16) (n : Fin 16) : Dev :=
  let ms := allLanes.filter fun m => (d.lane m).target == some h
  let d := endOp (ms.foldl (fun d m => relane (d.modLane m fun l => { l with target := none }) m) d) h stTimeout
  spareAgain d n

/-- Both party-wall lanes are LOCKED. -/
def pwLocked (d : Dev) : Bool := pwLanes.all fun m => (d.lane m).rx == .locked

/-- A receiver reaches LOCKED; PW_LANE ends when both party-wall lanes are (R615). -/
def laneLocked (d : Dev) (m : Fin 20) : Dev :=
  let d := d.modLane m fun l => { l with rx := .locked, bad := 0, clkOk := false }
  let d := if pwLocked d then setLive d 0x072 false else d
  finishSpare (endLaneFault d m 1) m

/-- A receiver loses its alignment, block lock or sync. -/
def laneUnlocked (d : Dev) (m : Fin 20) : Dev :=
  raiseLane (d.modLane m fun l => { l with rx := .align, good := 0, bad := 0 }) m 1

/-! ### HL_CFG and HL_TXEQ (R255, R261, R262, R271) -/

/-- Loopbacks and patterns are permitted (R261). -/
def mayLoop (d : Dev) (m : Fin 20) : Bool :=
  match (d.lane m).port with
  | some n => (d.port n).link.st == .isolated
  | none => m.val == 16 || m.val == 17

/-- One write of HL_CFG with its domain powered. -/
def putHlCfg (d : Dev) (m : Fin 20) (v : W32) : Dev :=
  let old := (d.lane m).cfg
  let loop := v &&& 0x00E0_0000 != 0
  let bad := loop && !mayLoop d m
  let new := (if bad then v &&& 0xFF1F_FFFF else v) &&& 0xFFE0_0000
  let new := if bad then new ||| 0x0010_0000 else new
  let rises := bit new 31 && !bit old 31
  let idle := laneTx d m == .idle
  let d := d.modLane m fun l => { l with
    cfg := new,
    mkBad := if rises then 0 else l.mkBad, rpDrop := if rises then 0 else l.rpDrop,
    blkLost := if rises then 0 else l.blkLost,
    prbsErrs := if bit new 21 && !bit old 21 then 0 else l.prbsErrs,
    prbsFill := if bit new 21 && !bit old 21 then 0 else l.prbsFill,
    sent := if rises then 2048 else l.sent, rx := if rises then .squelch else l.rx }
  let d := if bit new 31 then d else stopLane d m
  let d := relane d m
  idleDomains (if idle && loop && !bad then wakeLane d m else d)

def laneOffset (m : Fin 20) (r : Nat) : Nat := 0x200000 + m.val * 0x4000 + r

/-- A master's write of HL_CFG: with EN = 1 it powers the lane's domain first, without EN it changes nothing while the
domain is off (R271). Block HL does not answer while CORE runs from the RC oscillator (R466). The first lane of a domain whose clock is
gated is an override (R470). -/
def writeHlCfg (mst : Master) (m : Fin 20) (v : W32) (d : Dev) : Dev :=
  if !reachesAll mst then d
  else if d.clk.coreSrc == 2 then accessError d mst (laneOffset m 0) true
  else
    let need := neededClocks d
    let d :=
      if laneDomainOn d m then putHlCfg d m v
      else if bit v 31 then putHlCfg (if m.val < 18 then powerLaneOn d else powerPwOn d) m v
      else d
    { d with clk := { d.clk with gateOvr := satAdd d.clk.gateOvr (newOverrides d need) } }

/-- The drive limits of R255. -/
def txeqOk (v : W32) : Bool :=
  let pre := fld v 15 12
  let main := fld v 11 6
  let post := fld v 4 0
  decide (pre + main + post ≤ 63) && decide (pre + post ≤ main)

def writeTxeq (mst : Master) (m : Fin 20) (v : W32) (d : Dev) : Dev :=
  if !reachesAll mst then d
  else if !laneDomainOn d m || d.clk.coreSrc == 2 then accessError d mst (laneOffset m 4) true
  else if txeqOk v then d.modLane m fun l => { l with txeq := v &&& 0xFFDF, cfg := setFld l.cfg 20 20 0 }
  else d.modLane m fun l => { l with cfg := setFld l.cfg 20 20 1 }

/-! ### Bring-up and the eye (R254–R257) -/

/-- A receiver whose lane is enabled and powered. -/
def laneRuns (d : Dev) (m : Fin 20) : Bool := bit (d.lane m).cfg 31 && laneDomainOn d m

def hostSignalDetect (m : Fin 20) (d : Dev) : Dev :=
  if laneRuns d m then
    let d := endLaneFault d m 0
    d.modLane m fun l => if l.rx == .squelch then { l with rx := .adapt } else l
  else d

/-- The figure of merit of R256. -/
def merit (e : W8 × BitVec 6) : Nat := e.1.toNat * e.2.toNat

/-- The CTLE code with the largest figure of merit; of equal ones the lowest (DESIGN CHOICE, assumption 173). -/
def bestCtle (scan : Vector (W8 × BitVec 6) 16) : Fin 16 :=
  (List.finRange 16).foldl (fun b c => if merit scan[b.val] < merit scan[c.val] then c else b) 0

/-- The scan of the CTLE codes is done: `scan` gives what each has shown. CTLE_FORCE sets its own code in place of the best. -/
def laneAdaptDone (m : Fin 20) (scan : Vector (W8 × BitVec 6) 16) (d : Dev) : Dev :=
  d.modLane m fun l =>
    if l.rx == .adapt then
      let c : Fin 16 := if bit l.rxCfg 23 then ⟨fld l.rxCfg 22 19 % 16, Nat.mod_lt _ (by decide)⟩ else bestCtle scan
      { l with rx := .align, eye := scan[c.val].1, heye := scan[c.val].2, ctle := BitVec.ofNat 4 c.val, good := 0, bad := 0 }
    else l

/-- The eye monitor; `dfe` is where the adaptation of the DFE stands, which DFE_HOLD freezes. -/
def eyeMonitorUpdate (m : Fin 20) (eye : W8) (heye : BitVec 6) (dfe : List Int) (d : Dev) : Dev :=
  let l := d.lane m
  if !laneRuns d m || l.rx == .off || l.rx == .squelch then d
  else
    let d := d.modLane m fun l => { l with eye := eye, heye := heye, dfe := if bit l.rxCfg 18 then l.dfe else dfe }
    if fld l.rxCfg 31 24 ≤ eye.toNat then setLive d (srcLane m 4) false else d

/-- 1 ms below EYE_MIN (R256). -/
def eyeLow (m : Fin 20) (d : Dev) : Dev :=
  let l := d.lane m
  if laneRuns d m && l.rx != .off && l.rx != .squelch && decide (l.eye.toNat < fld l.rxCfg 31 24) then
    setLive d (srcLane m 4) true
  else d

/-- The polarity that the receiver applies to a pair, and whether it can read it (R257). -/
def polarity (cfg : W32) (inverted : Bool) : Option Bool :=
  match fld cfg 28 27 with
  | 1 => if inverted then none else some false
  | 2 => if inverted then some true else none
  | _ => some inverted

/-- 64b/66b block lock or 8b/10b sync (R254, R263). -/
def blockLockChange (m : Fin 20) (locked inverted : Bool) (d : Dev) : Dev :=
  let l := d.lane m
  if !laneRuns d m || l.coding == 1 then d
  else if locked then
    match polarity l.cfg inverted with
    | some inv => if l.rx == .align then laneLocked (d.modLane m fun l => { l with rxInv := inv }) m else d
    | none => d
  else if l.rx == .locked then laneUnlocked d m
  else d

/-- A lane that changed its rate is aligned again (R239). -/
def laneRealigned (m : Fin 20) (d : Dev) : Dev :=
  let l := d.lane m
  if laneRuns d m && (l.rx == .adapt || l.rx == .align) then laneLocked d m else d

/-- A receiver without a host signal (R254). -/
def squelch (d : Dev) (m : Fin 20) : Dev := d.modLane m fun l => { l with rx := .squelch, good := 0, bad := 0 }

/-- A near-end loopback runs: the receiver hears its own transmitter, and the pins are ignored (R261). -/
def nearLoop (d : Dev) (m : Fin 20) : Bool :=
  let v := fld (d.lane m).cfg 23 22
  (laneTx d m == .loop || laneTx d m == .pattern) && (v == 1 || v == 2)

/-- No signal for 1 µs: a fault while the lane's port is UP or TRAINING (R263, R264). -/
def laneLos (m : Fin 20) (d : Dev) : Dev :=
  if !laneRuns d m || nearLoop d m then d
  else match (d.lane m).port with
  | some n =>
    let st := (d.port n).link.st
    if st == .up || st == .training then raiseLane (squelch d m) m 0 else squelch d m
  | none => squelch d m

/-- The driver monitor finds the output stuck or out of limits (R263). -/
def laneTxFault (m : Fin 20) (d : Dev) : Dev :=
  match laneTx d m with
  | .off | .idle => d
  | _ => raiseLane d m 2

/-! ### Groups (R258) -/

/-- Lane j of a group carries the LANE that a straight or a reversed mapping gives it. -/
def groupMaps (d : Dev) (h : Fin 20) (reversed : Bool) : Bool :=
  (groupLanes h).all fun m =>
    let want := if reversed then h.val + 3 - m.val % 4 else m.val
    (d.lane m).hostLane == some (BitVec.ofNat 5 want)

def setGroupRev (d : Dev) (h : Fin 20) (rev : Bool) : Dev :=
  (groupLanes h).foldl (fun d m => d.modLane m fun l => { l with revd := rev }) d

/-- The mapping of a group, as REV or the host markers give it. -/
def mapGroup (d : Dev) (m : Fin 20) : Dev :=
  match groupHead m with
  | none => d
  | some h =>
    if !groupAuto d h then (groupLanes h).foldl (fun d x => setLive d (srcLane x 5) false) d
    else if !(groupLanes h).all fun x => (d.lane x).hostLane.isSome then d
    else
      let rev := groupMaps d h true
      let ok := rev || groupMaps d h false
      (groupLanes h).foldl (fun d x => setLive d (srcLane x 5) (!ok)) (setGroupRev d h (rev && ok))

/-- The logical lane of a receiver. -/
def logicalLane (d : Dev) (m : Fin 20) : Fin 20 := if groupReversed d m then mirrorLane m else m

/-- The port of a lane's upstream: in Byham the one that the last correct marker names, if it is assigned to the lane. -/
def upstreamPort (d : Dev) (m : Fin 20) : Option (Fin 16) :=
  let l := d.lane m
  if l.coding == 1 then
    match portOf (l.hostPort.setWidth 8) with
    | some n => if (d.port n).lane == logicalLane d m then some n else none
    | none => none
  else (d.lane (logicalLane d m)).port

/-! ### Host markers and credit (R247, R248) -/

/-- A correct marker sets the received count to SENT; the difference has been lost. -/
def creditSent (d : Dev) (n : Fin 16) (sent : W16) : Dev :=
  d.modPort n fun p => { p with up := { p.up with
    count := sent, drop := satAdd p.up.drop (sent - p.up.count).toNat } }

/-- An incorrect or missing marker in its expected place. -/
def badMarker (d : Dev) (m : Fin 20) : Dev :=
  let l := d.lane m
  if l.rx == .locked then
    if 3 ≤ l.bad then laneUnlocked d m else d.modLane m fun l => { l with bad := l.bad + 1 }
  else d.modLane m fun l => { l with good := 0 }

/-- A correct marker: LANE, PORT and SENT of R245. -/
def goodMarker (d : Dev) (m : Fin 20) (lane port : BitVec 5) (sent : W16) (inPlace inv : Bool) : Dev :=
  let l := d.lane m
  let moved := l.rx == .locked && port != l.hostPort
  let good := if inPlace then min (l.good + 1) 3 else 1
  let d := d.modLane m fun l => { l with
    good := good, bad := if inPlace || moved then 0 else l.bad, hostPort := port, hostLane := some lane, rxInv := inv }
  let d := mapGroup d m
  let d := match upstreamPort d m with
    | some n => creditSent d n sent
    | none => d
  if l.rx == .align && 3 ≤ good then laneLocked d m else d

/-- What a receiver leaves of stuffed bits (R244): the bits, its run, and whether a run of 10 came, which is a code violation. -/
structure Unstuffed where
  bits : List Bool
  last : Bool
  run : Nat
  bad : Bool
  deriving DecidableEq, Repr

def unstuffRun : List Bool → Bool → Nat → Unstuffed
  | [], last, run => ⟨[], last, run, false⟩
  | t :: ts, last, run =>
    if run == 9 && t != last then unstuffRun ts t 1
    else
      let run := if t == last then run + 1 else 1
      let r := unstuffRun ts t run
      { r with bits := t :: r.bits, bad := r.bad || decide (10 ≤ run) }

/-- Whether bits begin with a 20-bit word, as it is or inverted. -/
def startsWith (w : BitVec 20) (bits : List Bool) : Option Bool :=
  let x := bits.take 20
  if x == wordBits w then some false else if x == (wordBits w).map not then some true else none

def flipBits (inv : Bool) (bits : List Bool) : List Bool := if inv then bits.map not else bits

/-- An incorrect marker is ignored and counted; in an expected place it counts towards the loss of alignment (R248). -/
def countBad (d : Dev) (m : Fin 20) (inPlace : Bool) : Dev :=
  let d := d.modLane m fun l => { l with mkBad := satInc l.mkBad }
  if inPlace then badMarker d m else d

/-- One expected or received host marker: its bits on the wire from the comma on, or none where it is missing from its place. The
comma, as it is or inverted, gives the polarity; after a code violation in the marker the period is discarded (R244, R257). -/
def takeHostMarker (m : Fin 20) (bits : Option (List Bool)) (inPlace : Bool) (d : Dev) : Dev :=
  let l := d.lane m
  if !laneRuns d m || l.coding != 1 || !(l.rx == .align || l.rx == .locked) then d
  else match bits with
    | none => badMarker d m
    | some x =>
      match (startsWith byhamComma x).bind (polarity l.cfg) with
      | none => countBad d m inPlace
      | some inv =>
        let u := unstuffRun (flipBits inv (x.drop 20)) false 2
        let d := d.modLane m fun l => { l with rxLast := u.last, rxRun := u.run, rxBad := u.bad }
        let w : BitVec 60 := ofBits 60 u.bits
        if !u.bad && u.bits.length == 60 && crc16 44 (w.toNat / 65536) == w.toNat % 65536 then
          goodMarker d m (BitVec.ofNat 5 (lineFld w 0 5)) (BitVec.ofNat 5 (lineFld w 5 5)) (BitVec.ofNat 16 (lineFld w 28 16))
            inPlace inv
        else countBad d m inPlace

/-- The pattern checker of a lane takes raw bits, in the receiver's polarity (R262). -/
def checkRaw (d : Dev) (m : Fin 20) (bits : List Bool) : Dev :=
  if bit (d.lane m).cfg 21 then prbsCheck d m (flipBits (d.lane m).rxInv bits) else d

/-- A host marker at the pins. -/
def hostMarker (m : Fin 20) (bits : Option (List Bool)) (inPlace : Bool) (d : Dev) : Dev :=
  if nearLoop d m then d
  else takeHostMarker m bits inPlace (if laneRuns d m then checkRaw d m (bits.getD []) else d)

/-! ### Upstream blocks (R247, R252, R253) -/

/-- A PAUSE joins those that wait for a run of idle blocks. -/
def askPause (d : Dev) (n : Fin 16) (xoff : Bool) (time : W16) : Dev :=
  d.modPort n fun p => { p with up := { p.up with xoff := xoff, pauses := p.up.pauses ++ [time] } }

/-- PAUSE on a standard coding of a Gletik port. -/
def pauseCheck (d : Dev) (n : Fin 16) : Dev :=
  let p := d.port n
  let fill := p.up.blocks.length
  if (d.lane p.lane).coding != 2 then
    if p.up.xoff then d.modPort n fun p => { p with up := { p.up with xoff := false, pauses := [], pauseRest := [] } } else d
  else if decide (24576 < fill) && !p.up.xoff then askPause d n true 0xFFFF
  else if decide (fill < 8192) && p.up.xoff then askPause d n false 0
  else d

def pauseRepeat (n : Fin 16) (d : Dev) : Dev :=
  let p := d.port n
  if p.up.xoff && (d.lane p.lane).coding == 2 && decide (8192 < p.up.blocks.length) then askPause d n true 0xFFFF else d

/-- A block stands within the LIMIT that the host has been sent. -/
def withinLimit (p : Port) : Bool :=
  match p.up.limit with
  | some l =>
    let room := (l - p.up.count).toNat
    decide (1 ≤ room) && decide (room ≤ upFull)
  | none => true

/-- A block goes into the port's buffer, or is discarded (R252); only a Byham lane carries LIMIT. A standard-mode port has no rate
adaptation: its blocks go to the line PCS, idle ones as the two clocks need (R225, R251, R253). -/
def pushBlock (d : Dev) (n : Fin 16) (m : Fin 20) (b : BitVec 65) : Dev :=
  let p := d.port n
  if p.link.mode.std then
    if p.link.st == .up then
      let d := if b == idleBlock then { d with free := d.free + 1 } else d
      d.emit (.stdBlocks n (if b == idleBlock && Config.freeNat d.free % 3 == 1 then [] else absorbPpm (Config.freeNat d.free) [b]))
    else d
  else if decide (p.up.blocks.length < upFull) && ((d.lane m).coding != 1 || withinLimit p) then
    pauseCheck (d.modPort n fun p => { p with up := { p.up with blocks := p.up.blocks ++ [b], count := p.up.count + 1 } }) n
  else
    moment (d.modPort n fun p => { p with up := { p.up with drop := satInc p.up.drop, count := p.up.count + 1 } }) (srcLane m 6)

/-- Blocks leave the buffer for an upstream codeword. -/
def popBlocks (d : Dev) (n : Fin 16) (k : Nat) : List (BitVec 65) × Dev :=
  let b := (d.port n).up.blocks
  (b.take k ++ List.replicate (k - b.length) idleBlock,
    pauseCheck (d.modPort n fun p => { p with up := { p.up with blocks := p.up.blocks.drop k } }) n)

/-- Host traffic wakes a port in Reef, or withdraws an entry that has been agreed (R36, R136, R230, R259). -/
def hostTrafficWake (n : Fin 16) (d : Dev) : Dev :=
  let p := d.port n
  let reefed := p.link.st == .reef1 || p.link.st == .reef2
  let d := if reefed && p.link.mode.std then d.modPort n fun p => { p with std := { p.std with wakeSrc := 3 } } else d
  wakePort d n true

/-- Fill words before a block: what follows them, the polarity that they give, and whether they can be read (R244, R257). -/
def skipFill (cfg : W32) : Nat → List Bool → Bool → Bool × Nat → Option (List Bool × Bool × Bool × Nat)
  | 0, x, inv, run => some (x, inv, run)
  | k + 1, x, inv, run =>
    match startsWith byhamFill x with
    | some i => match polarity cfg i with
      | some inv => skipFill cfg k (x.drop 20) inv (true, 2)
      | none => none
    | none => some (x, inv, run)

/-- The block in the wire bits that a lane has received, if there is one, and the lane after them. In Byham they are the fill words
before the block and its stuffed bits (R241, R244); in 64b/66b the sync header and the scrambled payload (R250); on an 8b/10b lane eight
code groups give one (R251). -/
def LaneSt.takeBlock (l : LaneSt) (x : List Bool) : Option (BitVec 65) × LaneSt :=
  if l.coding == 1 then
    match skipFill l.cfg x.length x l.rxInv (l.rxLast, l.rxRun) with
    | none => (none, { l with rxBad := true })
    | some (y, inv, run) =>
      let u := unstuffRun (flipBits inv y) run.1 run.2
      let s := laneDescramble u.bits l.rxScr
      let bad := l.rxBad || u.bad || u.bits.length != 65
      (if bad then none else some (ofBits 65 s.1),
        { l with rxInv := inv, rxLast := u.last, rxRun := u.run, rxScr := s.2, rxBad := bad })
  else if is66 l.coding then
    let y := flipBits l.rxInv x
    let s := laneDescramble (y.drop 2) l.rxScr
    (if y.length != 66 then none
      else if y.take 2 == [false, true] then some (ofBits 65 (false :: s.1))
      else if y.take 2 == [true, false] then some (ofBits 65 (true :: s.1))
      else some errorBlock, { l with rxScr := s.2 })
  else if x.length == 80 then
    let r := take8b (flipBits l.rxInv x) l.rxRd
    (some r.1, { l with rxRd := r.2 })
  else (none, l)

/-- One block from the host. While it aligns, the receiver only follows the stream. A far-end loopback sends the block back, in place
of its way to the port (R261; DESIGN CHOICE, assumption 173). -/
def upstreamBlock (m : Fin 20) (bits : List Bool) (d : Dev) : Dev :=
  let l := d.lane m
  if laneRuns d m && bit l.cfg 21 then (if nearLoop d m then d else checkRaw d m bits)
  else if !laneRuns d m || !(l.rx == .align || l.rx == .locked) || nearLoop d m then d
  else
    let r := l.takeBlock bits
    let d := d.setLane m r.2
    if l.rx != .locked then d
    else match r.1 with
      | none => d
      | some b =>
        if laneTx d m == .loop then noteOverrun (sendBlocks d m [b]) m
        else match upstreamPort d m with
          | some n =>
            let d := if b == idleBlock then d else hostTrafficWake n d
            pushBlock d n m b
          | none => if m.val < 18 && l.coding == 1 then moment d (srcLane m 5) else d

/-! ### Markers to the host (R245–R247, R611) -/

/-- A mark joins the lane's queue, or is dropped from the lane. -/
def queueMark (d : Dev) (m : Fin 20) (k : Mark) (back : Nat) : Dev :=
  d.modLane m fun l =>
    if l.coding != 1 then l
    else if l.marks.length < 4 then { l with marks := l.marks ++ [(k, back)] }
    else { l with rpDrop := satInc l.rpDrop }

/-- The bits of a lane's next marker as its own receiver gets them in a near-end loopback: the serial one takes them at the pads
(R261). -/
def loopBits (d : Dev) (m : Fin 20) : List Bool :=
  let w := (takeMarker d m).1
  let bits := wordBits byhamComma ++ (stuffRun ((wordBits w).drop 20) false 2).1
  flipBits (fld (d.lane m).cfg 23 22 == 1 && bit (d.lane (txPin d m)).cfg 29) bits

/-- The pattern of one period in a near-end loopback: at the lane's own checker, and at the pins of the serial one. -/
def loopPattern (d : Dev) (m : Fin 20) : Dev :=
  let r := prbsOut d m
  if fld (d.lane m).cfg 23 22 == 2 then checkRaw (r.2.emit (.laneFill (txPin d m).val)) m r.1
  else checkRaw (emitBits r.2 m r.1) m (flipBits (bit (d.lane (txPin d m)).cfg 29) r.1)

/-- The bits of an idle block of a standard coding as the lane's own receiver gets them in a near-end loopback (R261). -/
def loopIdle (d : Dev) (m : Fin 20) : List Bool :=
  let l := d.lane m
  let bits := if is66 l.coding then (put66 idleBlock l.txScr).1 else (put8b l.txPcs idleBlock).1
  flipBits (fld l.cfg 23 22 == 1 && bit (d.lane (txPin d m)).cfg 29) bits

/-- One marker to the host, at the end of its period, or one idle block of a standard coding (R240). In a near-end loopback the lane's
own receiver takes it; the parallel one leaves the pins with fill words, or with idle (R261). A pattern takes the place of the
stream (R262). -/
def downstreamMarker (m : Fin 20) (d : Dev) : Dev :=
  if nearLoop d m && laneTx d m == .pattern then loopPattern d m
  else if nearLoop d m && (d.lane m).coding == 1 then
    let x := loopBits d m
    let d := if fld (d.lane m).cfg 23 22 == 2 then d.emit (.laneFill (txPin d m).val) else periodEnd d m
    takeHostMarker m (some x) true (noteOverrun d m)
  else if nearLoop d m then
    let x := loopIdle d m
    let d := periodEnd d m
    d.modLane m fun l => (l.takeBlock x).2
  else noteOverrun (periodEnd d m) m

/-! ### The end of a drain (R198, R239) -/

def drainEnd (n : Fin 16) (d : Dev) : Dev :=
  let p := d.port n
  if p.rtx.draining then
    syncLane (d.modPort n fun p => { p with
      rtx := { p.rtx with draining := false, entries := [], maps := [], newest := none, oldAnchor := none } }) n
  else d

/-! ### The rows -/

def execLaneEnable (mst : Master) (m : Fin 20) (v : W32) (s : State) : Host.Outcome State Fault Refusal :=
  onLive s (writeHlCfg mst m v)

def execLoopbackSelect (mst : Master) (m : Fin 20) (v : W32) (s : State) : Host.Outcome State Fault Refusal :=
  onLive s (writeHlCfg mst m v)

def execPrbsEnable (mst : Master) (m : Fin 20) (v : W32) (s : State) : Host.Outcome State Fault Refusal :=
  onLive s (writeHlCfg mst m v)

def execTxeqWrite (mst : Master) (m : Fin 20) (v : W32) (s : State) : Host.Outcome State Fault Refusal :=
  onLive s (writeTxeq mst m v)

def execLaneAdaptDone (m : Fin 20) (scan : Vector (W8 × BitVec 6) 16) (s : State) : Host.Outcome State Fault Refusal :=
  onLive s (laneAdaptDone m scan)

def execHostMarker (m : Fin 20) (bits : Option (List Bool)) (inPlace : Bool) (s : State) : Host.Outcome State Fault Refusal :=
  onLive s (hostMarker m bits inPlace)

def execUpstreamBlock (m : Fin 20) (bits : List Bool) (s : State) : Host.Outcome State Fault Refusal :=
  onLive s (upstreamBlock m bits)

def execPauseRepeat (n : Fin 16) (s : State) : Host.Outcome State Fault Refusal := onLive s (pauseRepeat n)

def execDownstreamMarker (m : Fin 20) (s : State) : Host.Outcome State Fault Refusal := onLive s (downstreamMarker m)

def execLaneLos (m : Fin 20) (s : State) : Host.Outcome State Fault Refusal := onLive s (laneLos m)

def execLaneTx (m : Fin 20) (s : State) : Host.Outcome State Fault Refusal := onLive s (laneTxFault m)

def execEyeMonitorUpdate (m : Fin 20) (eye : W8) (heye : BitVec 6) (dfe : List Int) (s : State) :
    Host.Outcome State Fault Refusal :=
  onLive s (eyeMonitorUpdate m eye heye dfe)

def execEyeLow (m : Fin 20) (s : State) : Host.Outcome State Fault Refusal := onLive s (eyeLow m)

def execLaneRealigned (m : Fin 20) (s : State) : Host.Outcome State Fault Refusal := onLive s (laneRealigned m)

def execHostTrafficWake (n : Fin 16) (s : State) : Host.Outcome State Fault Refusal := onLive s (hostTrafficWake n)

def execHostSignalDetect (m : Fin 20) (s : State) : Host.Outcome State Fault Refusal := onLive s (hostSignalDetect m)

def execBlockLockChange (m : Fin 20) (locked inverted : Bool) (s : State) : Host.Outcome State Fault Refusal :=
  onLive s (blockLockChange m locked inverted)

def execDrainEnd (n : Fin 16) (s : State) : Host.Outcome State Fault Refusal := onLive s (drainEnd n)

end Sys2Proof.Machine
end

