-- ==== Sys2Proof/Machine/Retx.lean ====
section
/-! DEFINITION. Downstream reception of a Gletik port: the reorder buffer, slot maps, requests, playout, the reserve check,
the service codeword and the freshness guard (R61–R85, R184–R207). -/
namespace Sys2Proof.Machine

def modRtx (d : Dev) (n : Fin 16) (f : RtxSt → RtxSt) : Dev := d.modPort n fun p => { p with rtx := f p.rtx }

/-- The counters of R207, by index. -/
def bump (d : Dev) (n : Fin 16) (i k : Nat) : Dev :=
  modRtx d n fun r => { r with counters := r.counters.setIfInBounds i (r.counters.getD i 0 + BitVec.ofNat 64 k) }

/-! ### Latency (R200, R210, R224) -/

/-- The limit of the base latency in units of 2^-4 tick. -/
def latLimit (coding : BitVec 3) : LineMode → Nat
  | .gl12 => if coding == 1 then 7600 else 8000
  | .gl6 => if coding == 1 then 10000 else 10400
  | .t10g => 7600
  | .t5g => 9600
  | .t2g5 => 14000
  | .t1g => 24000
  | _ => if coding == 1 then 6400 else 6800

def baseLat (d : Dev) (n : Fin 16) : Nat :=
  let p := d.port n
  let c := (d.lane p.lane).coding
  min (Config.baseLatency c.toNat (rtxMode p).code) (latLimit c (rtxMode p))

/-- W_ACT in DT ticks. -/
def windowTicks (p : Port) : Nat := p.rtx.wAct * 1000

/-- PT_LAT (R210). -/
def ptLat (d : Dev) (n : Fin 16) : W32 :=
  at_ 16 ((baseLat d n + 15) / 16 + windowTicks (d.port n)) ||| at_ 0 (baseLat d n)

/-! ### Slot maps (R62–R65) -/

def mapOf (r : RtxSt) (seq : Seq) : Option (List SlotDesc) := (r.maps.find? fun m => m.seq == seq).map (·.slots)

def descOf (r : RtxSt) (seq : Seq) (slot : BitVec 4) : Option SlotDesc := (mapOf r seq).bind fun l => l[slot.toNat]?

/-- A retransmission slot of a resolved map. -/
def isRtx (r : RtxSt) (seq : Seq) (slot : BitVec 4) : Bool :=
  match descOf r seq slot with
  | some x => x.1
  | none => false

/-- The identity that a descriptor names. -/
def targetOf (seq : Seq) (x : SlotDesc) : Seq × BitVec 4 := (seq - x.2.1.setWidth 24, x.2.2)

/-- With retransmission off every slot is new payload and no map is needed. -/
def needsMap (r : RtxSt) : Bool := r.wAct != 0

def REntry.is (e : REntry) (seq : Seq) (slot : BitVec 4) : Bool := e.seq == seq && e.slot == slot

def findEntry (r : RtxSt) (seq : Seq) (slot : BitVec 4) : Option REntry := r.entries.find? fun e => e.is seq slot

/-- Missing: allocated and not held correct, in a slot that is no retransmission slot (R188). -/
def isMissing (r : RtxSt) (e : REntry) : Bool := e.data.isNone && !isRtx r e.seq e.slot

/-- PENDING (R209). -/
def pending (r : RtxSt) : Nat := (r.entries.filter (isMissing r)).length

/-- PEAK follows PENDING. -/
def notePeak (d : Dev) (n : Fin 16) : Dev :=
  modRtx d n fun r => { r with peak := BitVec.ofNat 12 (max r.peak.toNat (pending r)) }

def setEntry (r : RtxSt) (seq : Seq) (slot : BitVec 4) (data : Option (BitVec 3250)) : RtxSt :=
  { r with entries := r.entries.map fun e => if e.is seq slot then { e with data := data } else e }

/-- What came in a slot stays with its entry until the slot's map is certain (R64). -/
def holdRaw (r : RtxSt) (seq : Seq) (slot : BitVec 4) (raw : Option (BitVec 3250)) : RtxSt :=
  { r with entries := r.entries.map fun e => if e.is seq slot then { e with raw := raw } else e }

/-- The entry of an identity takes a codeword that came in a retransmission slot. -/
def setCopy (r : RtxSt) (seq : Seq) (slot : BitVec 4) (m : BitVec 3250) (via : Seq × BitVec 4) : RtxSt :=
  { r with entries := r.entries.map fun e => if e.is seq slot then { e with data := some m, via := some via } else e }

/-- What a slot had brought goes back out of the entry that took it (R64). -/
def takeBack (r : RtxSt) (via : Seq × BitVec 4) : RtxSt :=
  { r with entries := r.entries.map fun e => if e.via == some via then { e with data := none, via := none } else e }

/-- The entry of an identity is allocated (R185). -/
def allocate (r : RtxSt) (seq : Seq) (slot : BitVec 4) (data : Option (BitVec 3250)) : RtxSt :=
  if (findEntry r seq slot).isSome then setEntry r seq slot data
  else if r.entries.length < 1152 then { r with entries := r.entries ++ [{ seq := seq, slot := slot, data := data }] }
  else r

/-- An identity is missing now, or a retransmission slot came (R296). -/
def noteDirty (d : Dev) (n : Fin 16) : Dev :=
  let t := d.dt.dt
  d.modPort n fun p => { p with raster := { p.raster with
    dirty := match p.raster.dirty with
      | (a, b) :: l => if (t - b).toNat < usTicks 2000 then (a, t) :: l.take 1 else (t, t) :: (a, b) :: []
      | [] => [(t, t)] } }

/-- A resent copy reaches the entry of its identity, or is invalid, or is late (R65, R188, R197). -/
def storeCopy (d : Dev) (n : Fin 16) (seq : Seq) (slot : BitVec 4) (x : SlotDesc) (data : Option (BitVec 3250)) (near : Bool) : Dev :=
  let r := (d.port n).rtx
  let t := targetOf seq x
  let d := noteDirty (modRtx d n fun r => { r with winRtx := true }) n
  if x.2.1 == 0 || isRtx r t.1 t.2 then bump d n 11 1
  else match findEntry r t.1 t.2, data with
    | some e, some m =>
      if e.data.isSome then bump d n 11 1
      else
        let d := modRtx d n fun r => setCopy r t.1 t.2 m (seq, slot)
        let d := bump (bump d n 5 1) n 6 1
        if near then bump d n 10 1 else d
    | some e, none => if e.data.isSome then bump d n 11 1 else d
    | none, some _ => bump (bump d n 5 1) n 9 1
    | none, none => d

/-- Codewords held under the slots of a superframe go to their own identities once its map is resolved; `old` is the map that they
went by until now, from whose identities they are taken back (R64, R65). -/
def refile (d : Dev) (n : Fin 16) (seq : Seq) (old slots : List SlotDesc) : Dev :=
  (List.range 15).foldl (fun d i =>
    let slot : BitVec 4 := BitVec.ofNat 4 i
    match slots[i]?, findEntry (d.port n).rtx seq slot with
    | some x, some e =>
      let was := (old[i]?.map (·.1)).getD false
      if old[i]? == some x || !(x.1 || was) then d
      else
        let d := modRtx d n fun r => takeBack r (seq, slot)
        if x.1 then storeCopy (modRtx d n fun r => setEntry r seq slot none) n seq slot x e.raw false
        else notePeak (modRtx d n fun r => setEntry r seq slot e.raw) n
    | _, _ => d) d

/-- MAP_CUR wins; where both were received and differ, a format error is counted (R64). -/
def learnMap (d : Dev) (n : Fin 16) (seq : Seq) (slots : List SlotDesc) (isCur : Bool) : Dev :=
  match mapOf (d.port n).rtx seq with
  | some old =>
    if old == slots then d
    else
      let d := bump d n 11 1
      if isCur then
        let d := modRtx d n fun r => { r with
          maps := r.maps.map fun m => if m.seq == seq then { m with slots := slots } else m }
        refile d n seq old slots
      else d
  | none => refile (modRtx d n fun r => { r with maps := ({ seq := seq, slots := slots } :: r.maps).take 300 }) n seq [] slots

/-! ### Bursts (R590–R592) -/

/-- The planner notes a burst, with its spacing from the one before. -/
def planBurst (s : PlanSt) (first last : W64) : PlanSt :=
  { s with bursts :=
      { time := last, len := (last - first).toNat, gap := s.bursts.head?.map fun b => ((first - b.time).toNat, b.len) } :: s.bursts }

/-- The BURST record of a burst that has ended. -/
def writeBurst (d : Dev) (n : Fin 16) : Dev :=
  match (d.port n).rtx.burst with
  | none => d
  | some (first, lost, missing, _, last) =>
    let space := match (d.port n).rtx.burstEnd with
      | some e => min ((first - e).toNat / 250) 0xFFFFFFFF
      | none => 0xFFFFFFFF
    let d := modRtx d n fun r => { r with burst := none, burstEnd := some last }
    let d := if (d.port n).pc.up then
        d.modPort n fun p => { p with diag := { p.diag with plan := planBurst p.diag.plan first last } }
      else d
    if 2 ≤ lost then
      attic d n 0x14 (leBytes 4 (last - first).toNat ++ leBytes 2 (min lost 65535) ++ leBytes 2 (min missing 65535) ++
        leBytes 4 space)
    else d

/-- The record of an ended burst waits until its last codeword has been played out. -/
def settleBurst (d : Dev) (n : Fin 16) : Dev :=
  let p := d.port n
  match p.rtx.burst with
  | some (_, _, _, good, last) =>
    let held := p.rtx.entries.any fun e => match dueAt p e.seq e.slot.toNat with
      | some t => decide (t ≤ last) && isMissing p.rtx e
      | none => false
    if decide (8 ≤ good) && !held then writeBurst d n else d
  | none => d

/-- One codeword at first reception counts in the present burst. -/
def noteBurst (d : Dev) (n : Fin 16) (seq : Seq) (slot : BitVec 4) (lost : Bool) : Dev :=
  let p := d.port n
  let due := (dueAt p seq slot.toNat).getD d.dt.dt
  let start := due - BitVec.ofNat 64 (cwTicks (rtxMode p))
  match p.rtx.burst, lost with
  | none, false => d
  | none, true => modRtx d n fun r => { r with burst := some (start, 1, 0, 0, due) }
  | some (f, k, m, good, last), true =>
    if 8 ≤ good then modRtx (writeBurst d n) n fun r => { r with burst := some (start, 1, 0, 0, due) }
    else modRtx d n fun r => { r with burst := some (f, k + 1, m, 0, if last < due then due else last) }
  | some (f, k, m, good, last), false =>
    settleBurst (modRtx d n fun r => { r with burst := some (f, k, m, good + 1, last) }) n

/-! ### Reception (R114, R185, R188, R197, R206) -/

/-- Counters 0–3 of R207; `corrected` is none for an uncorrectable codeword. -/
def countCw (d : Dev) (n : Fin 16) (corrected : Option Nat) (first : Bool) : Dev :=
  let d := bump d n 0 1
  match corrected with
  | some c => if c == 0 then d else bump (bump d n 1 1) n 2 c
  | none => if first then bump d n 3 1 else d

/-- While the old link drains, its codewords still arrive: all of them before phase 6, and after the switch those at most two
superframes past its newest, since T_CAM and the path take less (R131, R198). -/
def oldLink (p : Port) (seq : Seq) : Bool :=
  p.rtx.draining && p.link.st == .training && (decide (p.link.phase.toNat < 6) || match p.rtx.newest with
    | some w => decide ((seq - w).toNat ≤ 2)
    | none => false)

/-- The reorder buffer stores codewords while the port is UP, and those of the old link while it drains. -/
def stores (p : Port) (seq : Seq) : Bool := p.link.st == .up || oldLink p seq

/-- A codeword goes to its identity. -/
def storeCw (d : Dev) (n : Fin 16) (seq : Seq) (slot : BitVec 4) (data : Option (BitVec 3250)) (near : Bool) : Dev :=
  let r := (d.port n).rtx
  match descOf r seq slot with
  | some x =>
    if x.1 then storeCopy (modRtx d n fun r => holdRaw (allocate r seq slot none) seq slot data) n seq slot x data near
    else
      let d := modRtx d n fun r => holdRaw (allocate r seq slot data) seq slot data
      if data.isNone then noteDirty d n else if near then bump d n 10 1 else d
  | none =>
    let d := modRtx d n fun r => holdRaw (allocate r seq slot data) seq slot data
    if data.isNone then noteDirty d n else if near then bump d n 10 1 else d

/-- Slot 15 ends its superframe: the newest superframe, and the runs of phase 7. What drains keeps the old link's. -/
def superframeEnd (d : Dev) (n : Fin 16) (seq : Seq) (ok : Bool) : Dev :=
  d.modPort n fun p => { p with
    rtx := if p.rtx.draining && !stores p seq then p.rtx else { p.rtx with newest := some seq },
    train := if ok then p.train else { p.train with svcRun := 0, armedRun := 0 } }

/-- FEC lock in phase 6, and the L0 trigger while UP (R36, R114). -/
def trackLock (d : Dev) (n : Fin 16) (ok : Bool) : Dev :=
  let p := d.port n
  if inPhase p 6 then
    let run := if ok then p.train.goodRun + 1 else 0
    let d := d.modPort n fun p => { p with train := { p.train with goodRun := run, fecLock := p.train.fecLock || decide (16 ≤ run) } }
    checkPhase6 d n
  else if upForTrigger d p then
    let run := if ok then 0 else p.train.badRun + 1
    let d := d.modPort n fun p => { p with train := { p.train with badRun := run } }
    if 8 ≤ run then l0Trigger d n else d
  else d

/-- Whether the port decodes downstream codewords now. -/
def receives (p : Port) (seq : Seq) : Bool :=
  stores p seq || inPhase p 6 || inPhase p 7 || p.link.st == .reef1

/-- The blocks of a payload codeword, first first (R52). -/
def payloadBlocks (m : BitVec 3250) : List (BitVec 65) := (List.range 50).map fun i => BitVec.ofNat 65 (lineFld m (65 * i) 65)

/-- The blocks reach the port's lane, where it carries data; a waiting PAUSE takes its place among them, and blocks that come past
the tolerance of R201 are lost (R249, R253). Idle ones of a standard mode come and go as the two clocks need (R251). `ahead` are
blocks that follow, as far as the port holds them. -/
def toLane (d : Dev) (n : Fin 16) (o : Nat → Output) (blocks : List (BitVec 65)) (ahead : List (BitVec 65) := []) : Dev :=
  let m := (d.port n).lane
  match laneTx d m with
  | .data =>
    let x := withPause d n m blocks ahead
    let d := x.2
    let x := if (d.port n).link.mode.std then
        (absorbPpm (Config.freeNat d.free) x.1, { d with free := d.free + 1 })
      else (x.1, d)
    noteOverrun ((sendBlocks x.2 m x.1).emit (o (txPin d m).val)) m
  | _ => d

/-- One RS frame of a standard mode: its blocks go to the lane, those of an uncorrectable one marked as errors (R222, R225). -/
def stdFrame (d : Dev) (n : Fin 16) (r : FrameResult) : Dev :=
  match r with
  | .ok c blocks => toLane (countCw d n (some c) true) n (fun m => .laneBlocks m blocks) blocks
  | .uncorrectable k => toLane (countCw d n none true) n (fun m => .laneErrored m k) (List.replicate k errorBlock)

/-- What the decoder makes of a codeword: the slicer inputs with their polarity corrected, and the downstream scrambler where it
stands in that slot, loaded at SEQ 0 with the seed of the link that sent it (R54, R56, R78, R111, R198). -/
def decoded (p : Port) (seq : Seq) (slot : BitVec 4) (x : List Int) : Option (Nat × BitVec 3250) :=
  let seed := if oldLink p seq && decide (6 ≤ p.link.phase.toNat) then p.line.oldSeed else p.line.rxSeed
  decodeCodeword (if p.link.polInv then x.map fun v => -v else x)
    (scrAdvance ((16 * seq.toNat + slot.toNat) * codewordBits) seed)

/-- A payload codeword held correct counts for R193 when any block of it is not idle. -/
def noteLoad (d : Dev) (n : Fin 16) (m : BitVec 3250) : Dev :=
  if (payloadBlocks m).any fun b => b != idleBlock then modRtx d n fun r => { r with busy := r.busy + 1 } else d

/-- An uncorrectable codeword of the old link in the tick of a MODE_SWITCH counts on; the eighth is an L0 trigger that cancels the
switch (R36, R126). -/
def lateLoss (d : Dev) (n : Fin 16) (ok : Bool) : Dev :=
  match switchedNow d (d.port n) with
  | some x =>
    let run := if ok then 0 else x.bad + 1
    if 8 ≤ run then undoSwitch d n x
    else d.modPort n fun p => { p with line := { p.line with switched := some { x with bad := run } } }
  | none => d

/-- One downstream codeword of a Gletik port, decoded. -/
def gletikCodeword (d : Dev) (n : Fin 16) (seq : Seq) (slot : BitVec 4) (r : Option (Nat × BitVec 3250)) (near : Bool) : Dev :=
  let p := d.port n
  let first := !isRtx p.rtx seq slot
  let data := r.map (·.2)
  let ok := r.isSome
  let d := countCw d n (r.map (·.1)) first
  let d := if slot == 0 then
      captureSuperframe d n ((dueAt p seq 0).getD d.dt.dt - BitVec.ofNat 64 (cwTicks (rtxMode p))) seq
    else d
  let d := if stores p seq then
      let d := notePeak (storeCw d n seq slot data near) n
      let d := match data with
        | some m => if first && slot != 15 then noteLoad d n m else d
        | none => d
      if first then noteBurst d n seq slot (!ok) else d
    else d
  let d := if slot == 15 then superframeEnd d n seq ok else d
  if oldLink p seq then lateLoss d n ok else trackLock d n ok

/-- One downstream codeword as it reaches the slicer, or one RS frame in a standard mode. -/
def codewordReceived (n : Fin 16) (seq : Seq) (slot : BitVec 4) (r : CwLine) (a : Arrival) (d : Dev) : Dev :=
  let p := d.port n
  match r, p.link.mode.std with
  | .frame f, true => if p.link.st == .up || p.link.st == .reef1 then stdFrame d n f else d
  | .symbols x, false =>
    if receives p seq then
      gletikCodeword (d.modPort n (measurePath a.roundTrip)) n seq slot (decoded p seq slot x) a.inPlayoutTick
    else d
  | _, _ => d

/-! ### Requests (R73, R74) -/

/-- A retransmission that a received map announces and whose superframe has not been received. -/
def isDue (r : RtxSt) (seq : Seq) (slot : BitVec 4) : Bool :=
  match r.newest with
  | none => false
  | some w => r.maps.any fun m => decide (0 < (m.seq - w).toInt) && m.slots.any fun x => x.1 && targetOf m.seq x == (seq, slot)

/-- The identities that the next request names. -/
def requests (r : RtxSt) (base : Seq) : List REntry :=
  r.entries.filter fun e => isMissing r e && !isDue r e.seq e.slot && decide ((e.seq - base).toNat < 64)

def reqBit (base : Seq) (e : REntry) : Nat := 16 * (e.seq - base).toNat + e.slot.toNat

/-- REQ_BASE and REQ_MAP join the service codeword under construction, which then departs (R73). Before the first downstream
superframe has been received in full, REQ_BASE is 0 (DESIGN CHOICE, assumption 174). -/
def reqMapBuild (n : Fin 16) (d : Dev) : Dev :=
  let p := d.port n
  match p.line.svc with
  | none => d
  | some svc =>
    let base : Seq := match p.rtx.newest with
      | some w => w - 63
      | none => 0
    let on := p.link.st == .up && p.rtx.wAct != 0
    let want := if on then requests p.rtx base else []
    let map : BitVec 1024 := want.foldl (fun m e => setBit m (reqBit base e) true) 0
    let fresh := (want.filter fun e => !e.requested).length
    let msg : BitVec 3250 :=
      svc ||| (base.setWidth 3250 <<< 3050) ||| (BitVec.ofNat 3250 (revBits 1024 map.toNat) <<< 2026)
    let d := d.modPort n fun p => { p with
      line := { p.line with svc := none },
      rtx := { p.rtx with
        reqBase := base, reqMap := map,
        entries := p.rtx.entries.map fun e => if want.any (·.is e.seq e.slot) then { e with requested := true } else e } }
    (if fresh == 0 then d else bump d n 4 fresh).emit (.upService n (codewordLevels msg p.line.svcScr))

/-! ### The freshness guard (R202–R205) -/

def freshLimit (d : Dev) (p : Port) : Nat :=
  let k := fld p.cfg.freshCfg 7 4
  (if k == 0 then 2 else k) * d.raster.frameLen / 65536

/-- A stale-frame fault is raised, once while it stays live. -/
def raiseStale (d : Dev) (n : Fin 16) (k : Fin 4) : Dev :=
  let p := d.port n
  let d := if bit p.fresh.stale k.val then d else bump d n 15 1
  setLive (d.modPort n fun p => { p with fresh := { p.fresh with stale := setBit p.fresh.stale k.val true } }) (srcPort n (3 + k.val)) true

def clearStale (d : Dev) (n : Fin 16) (k : Fin 4) : Dev :=
  setLive (d.modPort n fun p => { p with fresh := { p.fresh with stale := setBit p.fresh.stale k.val false } })
    (srcPort n (3 + k.val)) false

/-- One start-of-frame mark, timed at t. -/
def freshMark (d : Dev) (n : Fin 16) (k : Fin 4) (frame : W32) (t : W64) : Dev :=
  let p := d.port n
  let take (d : Dev) : Dev := d.modPort n fun p => { p with fresh := { p.fresh with
    frames := p.fresh.frames.set k.val frame, lastAt := p.fresh.lastAt.set k.val t } }
  if !bit p.cfg.freshCfg 0 || !bit p.cfg.freshCfg (8 + k.val) then d
  else if !bit p.fresh.armed k.val then
    if p.link.st == .up then
      take (d.modPort n fun p => { p with fresh := { p.fresh with armed := setBit p.fresh.armed k.val true } })
    else d
  else
    let adv := frame - p.fresh.frames[k.val]
    let repeat_ (d : Dev) : Dev := raiseStale (d.modPort n fun p => { p with fresh := { p.fresh with
      repeats := satInc p.fresh.repeats } }) n k
    if adv == 0 then repeat_ d
    else if adv.toNat ≤ 2 ^ 31 then
      let limit := freshLimit d p
      let near := limit != 0 && t == p.fresh.lastAt[k.val] + BitVec.ofNat 64 limit
      let d := d.modPort n fun p => { p with fresh := { p.fresh with
        skips := if adv == 1 then p.fresh.skips else satInc p.fresh.skips,
        near := if near then satInc p.fresh.near else p.fresh.near } }
      clearStale (take d) n k
    else take (repeat_ d)

/-- The limit after the last accepted mark has passed (R203); without a master raster there is no limit. -/
def freshnessTimeout (n : Fin 16) (k : Fin 4) (d : Dev) : Dev :=
  let p := d.port n
  let limit := freshLimit d p
  let timed := p.link.st == .up || p.link.st == .training
  if bit p.fresh.armed k.val && bit p.cfg.freshCfg 0 && bit p.cfg.freshCfg (8 + k.val) && timed && limit != 0 then
    raiseStale (d.reach (p.fresh.lastAt[k.val] + BitVec.ofNat 64 limit)) n k
  else d

/-! ### Playout (R184–R186, R195, R196) -/

/-- An instant later by k units of 2^-4 tick, as a stamp. -/
def stampAfter (d : Dev) (k : Nat) : Stamp × RPos :=
  let t := d.t16 + (k * 4096 : Nat)
  (⟨BitVec.ofInt 64 (t / 65536), BitVec.ofInt 16 (t % 65536), d.dt.coarse⟩,
    if d.raster.avail then d.raster.posAt t else {})

/-- A missing payload identity is played out: counters, the loss episode and its burst. -/
def playMissing (d : Dev) (n : Fin 16) (seq : Seq) (slot : BitVec 4) (unres : Bool) : Dev :=
  let s := stampAfter d (baseLat d n)
  let d := noteDirty (bump d n 7 1) n
  let d := if unres then bump d n 8 1 else d
  modRtx d n fun r => { r with
    episode := match r.episode with
      | some (q, x, k, a, b) => some (q, x, k + 1, a, b)
      | none => some (seq, slot, 1, s.1, s.2),
    burst := r.burst.map fun b => (b.1, b.2.1, b.2.2.1 + 1, b.2.2.2) }

/-- The marks that name a block of this codeword are timed, and join the lane's queue (R202, R246). -/
def playMarks (d : Dev) (n : Fin 16) (seq : Seq) (slot : BitVec 4) : Dev :=
  let w := (d.port n).fresh.waiting
  let mine := w.filter fun k => k.seq == seq && k.slot == slot
  let d := d.modPort n fun p => { p with fresh := { p.fresh with waiting := w.filter fun k => !(k.seq == seq && k.slot == slot) } }
  mine.foldl (fun d k =>
    let d := queueMark d (d.port n).lane k (50 - k.offset)
    if k.type == 0 then freshMark d n k.stream k.frame d.dt.dt else d) d

/-- The first blocks of the payload codeword after an identity, as far as the port holds them. -/
def heldAhead (r : RtxSt) (seq : Seq) (slot : BitVec 4) : List (BitVec 65) :=
  let next : Seq × BitVec 4 := if 14 ≤ slot.toNat then (seq + 1, 0) else (seq, slot + 1)
  if needsMap r && (mapOf r next.1).isNone then []
  else if isRtx r next.1 next.2 then List.replicate 11 idleBlock
  else match findEntry r next.1 next.2 with
    | some e => match e.data with
      | some m => (payloadBlocks m).take 11
      | none => []
    | none => []

/-- The framer releases one identity at its playout time. The first payload codeword played out in UP ends the Local Fault of the
lane (R115). -/
def playout (n : Fin 16) (seq : Seq) (slot : BitVec 4) (d : Dev) : Dev :=
  let p := d.port n
  match findEntry p.rtx seq slot with
  | none => d
  | some e =>
    let d := match dueAt p seq slot.toNat with
      | some t => d.reach (t + BitVec.ofNat 64 (windowTicks p))
      | none => d
    let unres := needsMap p.rtx && (mapOf p.rtx seq).isNone
    let idle := isRtx p.rtx seq slot
    let d := modRtx d n fun r => { r with
      entries := r.entries.filter fun e => !e.is seq slot, played := r.played || (p.link.st == .up && slot != 15 && !idle) }
    let d :=
      if slot == 15 then d
      else if idle then toLane d n (fun m => .laneIdle m 50) (List.replicate 50 idleBlock) (heldAhead (d.port n).rtx seq slot)
      else match e.data, unres with
        | some m, false => toLane d n (fun l => .laneBlocks l (payloadBlocks m)) (payloadBlocks m) (heldAhead (d.port n).rtx seq slot)
        | _, _ => playMissing (toLane d n (fun m => .laneErrored m 50) (List.replicate 50 errorBlock)) n seq slot unres
    settleBurst (playMarks d n seq slot) n

/-- 1 ms without another missing playout (R196). -/
def lossEpisodeEnd (n : Fin 16) (d : Dev) : Dev :=
  match (d.port n).rtx.episode with
  | none => d
  | some (seq, slot, k, s, r) =>
    let body := leBytes 4 seq.toNat ++ [BitVec.ofNat 8 slot.toNat, 0, 0, 0] ++ leBytes 4 k
    let d := modRtx d n fun x => { x with episode := none }
    let d := eventTo d .pf0 s r 0x0010 (scopePort n) body
    let d := eventTo d .pf1 s r 0x0010 (scopePort n) body
    atticAt d n s r 0x03 body

/-! ### The reserve check (R193) -/

/-- Payload codewords with a non-idle block that the reserve allows in 64 superframes. -/
def loadLimit (r : RtxSt) : Nat := (200 - r.resAct) * 960 / 200

/-- The window of 64 superframes ends with the one whose SEQ is 63 modulo 64. -/
def loadWindowEnd (n : Fin 16) (d : Dev) : Dev :=
  let p := d.port n
  let ended := match p.rtx.newest with
    | some w => w.toNat % 64 == 63
    | none => false
  if !p.link.mode.gletik || !ended then d
  else
    let check := bit p.cfg.rtxCfg 0 && p.rtx.winUp && !p.rtx.winRtx && !p.rtx.prevRtx && p.link.st == .up
    let d := modRtx d n fun r => { r with prevRtx := r.winRtx, winRtx := false, winUp := p.link.st == .up, busy := 0 }
    if check && decide (loadLimit p.rtx < p.rtx.busy) then moment (bump d n 14 1) (srcPort n 2) else d

/-! ### The service codeword (R61, R66–R70, R84, R85) -/

/-- The level that a HEALTH word gives the CAMERA source; none where it gives none. -/
def cameraLevel (h : W32) : Option Nat :=
  let st := fld h 31 28
  if st == 2 || st == 3 then some 1
  else if st == 1 || bit h 27 || bit h 26 then some 0
  else none

/-- The CAMERA source follows the last HEALTH word; from NOTE to DEGRADE it occurs again (R515). -/
def cameraSource (d : Dev) (n : Fin 16) (old new : W32) : Dev :=
  let src := srcPort n 14
  match cameraLevel new with
  | none => setLive d src false
  | some l =>
    let was := isLive d src
    let g := d.flt.port[n.val]
    let d := setGroup d (.port n) { g with hwLive := setBit g.hwLive 14 true }
    if !was || (l == 1 && cameraLevel old == some 0) then occur d src l else d

/-- A HEALTH word (R69, R358). What a link brings before its entry to UP is not yet recorded: the first word after it is judged
against the last of the earlier link. -/
def takeHealth (d : Dev) (n : Fin 16) (h : W32) : Dev :=
  let p := d.port n
  let old := p.oam.health
  if inPhase p 6 || inPhase p 7 then cameraSource d n old h else
  let changed := old != h || (p.link.st == .up && !p.oam.healthSeen)
  let d := d.modPort n fun p => { p with oam := { p.oam with health := h, healthSeen := p.oam.healthSeen || p.link.st == .up } }
  let d := if changed then attic d n 0x05 (leBytes 4 h.toNat ++ leBytes 4 old.toNat) else d
  cameraSource d n old h

/-- OVERRUN and LOAD_HIGH (R70, R193). -/
def takeRtxStat (d : Dev) (n : Fin 16) (w : W64) : Dev :=
  let d := d.modPort n fun p => { p with oam := { p.oam with rtxStat := w } }
  let d := if bit w 17 then bump d n 13 1 else d
  if bit w 16 then moment d (srcPort n 2) else d

/-- REQ_ACK: the upstream USEQ values that it passes without showing are upstream losses (R590). An older service codeword
that retransmission recovered moves nothing. -/
def takeReqAck (d : Dev) (n : Fin 16) (seq ack : Seq) : Dev :=
  d.modPort n fun p =>
    let lost := match p.oam.reqAck with
      | some a => (ack - a).toInt.toNat - 1
      | none => 0
    let older := match p.rtx.newest with
      | some w => decide ((seq - w).toInt < 0)
      | none => false
    if older || oldLink p seq then p
    else { p with
      oam := { p.oam with reqAck := some ack },
      diag := if p.link.st == .up && p.rtx.wAct != 0 then { p.diag with lossNow := p.diag.lossNow + lost } else p.diag }

/-- A mark that R68 accepts. -/
def markOk (r : RtxSt) (seq : Seq) (k : RawMark) : Bool :=
  let s := if k.prev then seq - 1 else seq
  k.type.toNat ≤ 4 && k.offset % 65 == 0 && k.offset ≤ 48685 &&
  !isRtx r s (BitVec.ofNat 4 (k.offset / 3250))

/-- One raster mark: the raster and the guard take it (R68, R202, R296). A block that has been played out already is timed
at its own playout. -/
def takeMark (d : Dev) (n : Fin 16) (seq : Seq) (k : RawMark) : Dev :=
  if !k.v then d
  else
    let p := d.port n
    if !markOk p.rtx seq k then bump d n 12 1
    else
      let s := if k.prev then seq - 1 else seq
      let slot : BitVec 4 := BitVec.ofNat 4 (k.offset / 3250)
      let block := k.offset % 3250 / 65
      let m : Mark := { type := k.type, stream := k.stream, frame := k.frame, line := k.line, seq := s, slot := slot, offset := block }
      let t := (dueAt p s slot.toNat).getD d.dt.dt
      let d := rasterMark d n k.type k.stream k.frame t
      if (findEntry p.rtx s slot).isSome then
        d.modPort n fun p => { p with fresh := { p.fresh with waiting := p.fresh.waiting ++ [m] } }
      else
        let d := queueMark d p.lane m ((if k.prev then 1500 else 750) - k.offset / 65)
        if k.type == 0 then freshMark d n k.stream k.frame (t + BitVec.ofNat 64 (windowTicks p)) else d

/-- Phase 7: 8 consecutive service codewords, and RTX_ARMED in two where retransmission is wanted (R107, R115). -/
def checkPhase7 (d : Dev) (n : Fin 16) (armed : Bool) : Dev :=
  if !inPhase (d.port n) 7 then d
  else
    let d := d.modPort n fun p => { p with train := { p.train with
      svcRun := p.train.svcRun + 1, armedRun := if armed then p.train.armedRun + 1 else 0 } }
    let p := d.port n
    if decide (8 ≤ p.train.svcRun) && ((windowAtUp p).1 == 0 || decide (2 ≤ p.train.armedRun)) then
      enterUp (nearCheck d n) n
    else d

/-- A service codeword of another version is treated as lost: what the buffer holds of it is missing again (R85). -/
def loseService (d : Dev) (n : Fin 16) (seq : Seq) (old : Bool) : Dev :=
  let p := d.port n
  let d := bump d n 11 1
  let d := if stores p seq && (findEntry p.rtx seq 15).isSome then
      notePeak (noteDirty (modRtx d n fun r => setEntry r seq 15 none) n) n
    else d
  if old then d else d.modPort n fun p => { p with train := { p.train with svcRun := 0, armedRun := 0 } }

/-- One downstream service codeword; `roundTrip` is the measurement of the epoch that it ends, in units of 2^-8 tick, which a codeword of
another version brings as well (R49). -/
def downstreamServiceCodeword (n : Fin 16) (msg : BitVec 3250) (roundTrip : Option Nat) (d : Dev) : Dev :=
  let p := d.port n
  let c := parseService msg
  if p.link.mode.std || !receives p c.seq then d
  else
    let old := oldLink p c.seq
    if c.ver != 1 then loseService (d.modPort n (measurePath roundTrip)) n c.seq old
    else
      let d := d.modPort n fun p => measurePath roundTrip { p with
        line := { p.line with turn := c.turn },
        link := { p.link with timingHere := c.timingHere },
        train := if old then p.train else { p.train with locked := c.locked } }
      let d := learnMap d n c.seq c.mapCur true
      let d := learnMap d n (c.seq + 1) c.mapNext false
      let d := c.marks.foldl (fun d k => takeMark d n c.seq k) d
      let d := takeReqAck (takeRtxStat (takeHealth d n c.health) n c.rtxStat) n c.seq c.reqAck
      let d := oamReceived d n c.oam
      if old then d else checkPhase7 (checkPhase6 d n) n c.rtxArmed

/-! ### Upstream superframes (R46, R71, R72, R103, R113, R133, R136) -/

/-- The first waiting command of a kind. Every command goes out in RLC0 or TRG0, first in, first out (DESIGN CHOICE, assumption
174). -/
def firstCmd (p : Port) (trigger : Bool) : Option UpCmd := p.oam.cmds.find? fun c => (c.code == 8) == trigger

/-- A command that goes out once more (R77). -/
def sentCmd (l : List UpCmd) (c : Option UpCmd) : List UpCmd :=
  match c with
  | none => l
  | some c => if c.left ≤ 1 then l.erase c else l.map fun x => if x == c then { c with left := c.left - 1 } else x

/-- The precoder set and the seeds that the hub sends now: in phases 4 and 5, and for a planned downshift (R79, R80, R129). -/
def offered (p : Port) : Option (Nat × Nat × List W16) × Option (BitVec 58 × BitVec 58) :=
  if inPhase p 4 || inPhase p 5 then
    (some (p.train.pcSet.toNat, p.line.ntap.toNat, p.line.taps), some (p.line.seedUs, p.line.seedDs))
  else match p.line.dsTarget with
    | some .t10g => (none, none)
    | some _ => (some (p.line.dsPcSet.toNat, p.line.dsNtap.toNat, p.line.dsTaps), some (p.line.dsSeedUs, p.line.dsSeedDs))
    | none => (none, none)

/-- The window and the reserve that the hub shows (R72, R199); while retransmission is off, the configured window, since the field
has no value for none (DESIGN CHOICE, assumption 174). -/
def shownWindow (p : Port) : Nat × Nat :=
  let w := if p.link.st == .up then (p.rtx.wAct, p.rtx.resAct) else ((windowAtUp p).1, cfgReserve p.cfg)
  (if w.1 = 0 then cfgW p.cfg else w.1, w.2)

def rtxEnabled (p : Port) : Bool :=
  if p.link.st == .up then p.rtx.wAct != 0 else inPhase p 7 && (windowAtUp p).1 != 0

/-- The service codeword of the present superframe without its request fields. -/
def buildService (d : Dev) (n : Fin 16) (operational : Bool) (oam : Option (Nat × Nat × Nat × Nat)) : BitVec 3250 :=
  let p := d.port n
  let o := offered p
  let rlc := if operational then firstCmd p false else none
  let trg := if operational then firstCmd p true else none
  encodeUpService {
    useq := p.train.useq, rtxEn := operational && rtxEnabled p, pcValid := o.1.isSome, seedValid := o.2.isSome,
    dt := d.dt.dt, frac := d.dt.frac, path := p.line.path, role := roleCode d, devid := devId d, pepoch := d.pair.pepoch,
    reserve := BitVec.ofNat 8 (shownWindow p).2, win := BitVec.ofNat 8 (shownWindow p).1, reqBase := 0, reqMap := 0,
    rlc0 := rlc.map fun c => (c.code.toNat, c.id.toNat, c.data.toNat),
    rlc1 := none, trg0 := trg.map fun c => (c.id.toNat, c.data.toNat % 2 ^ 80), trg1 := none,
    precoder := o.1, seeds := o.2, oam := oam }

/-- UTC CMD: 1 TRAIN, 2 FAST, 3 DROP_STD (R104). -/
def trainCmd (p : Port) : Nat := if p.train.dropStd != 0 then 3 else if p.link.fast then 2 else 1

/-- One superframe of training framing: the UTC, two payload codewords of idle and the service codeword, from the training seed on
(R55, R103). -/
def trainingSuperframe (d : Dev) (n : Fin 16) : Dev :=
  let p := d.port n
  let target := if p.train.dropStd != 0 then 4 else p.link.mode.code
  let utc := utcBits (trainCmd p) target p.link.phase.toNat p.link.attempt.toNat (hubModes p) p.train.start p.train.switch
  let msg := buildService d n false none
  let idle := blocksMsg (List.replicate 50 idleBlock)
  let d := d.emit (.training n p.train.useq (codewordsLevels [utc.setWidth 3250 <<< 3170, idle, idle, msg] trainSeedUs))
  let d := d.modPort n fun p => { p with
    line := { p.line with stampUs := d.stamp }, train := { p.train with useq := p.train.useq + 1, dropStd := p.train.dropStd - 1 } }
  if p.train.dropStd == 1 then startAn d n 8 else d

/-- The state of the upstream scrambler at the start of a superframe: the seed at USEQ 0 (R56). -/
def scrAt (p : Port) : BitVec 58 := if p.train.useq == 0 then p.line.seedUs else p.line.nextUs

/-- The loop timing at the departure of an epoch: its downstream superframe is the next one aligned; that of a switch is SEQ 0 (R45–R48,
R56, R184). -/
def followEpoch (d : Dev) (p : Port) : Option (Seq × Int) :=
  if p.train.useq.toNat % 4 = 0 then
    p.rtx.dsAnchor.map fun a =>
      (if p.train.useq == 0 && a.1 == 0 then 0 else a.1 + BitVec.ofNat 24 (perEpoch p.link.mode), epochReturn d p)
  else p.rtx.dsAnchor

/-- One operational superframe: slots 0–2 leave, and the service codeword is prepared. -/
def operationalSuperframe (d : Dev) (n : Fin 16) : Dev :=
  let p := d.port n
  let x := if p.link.st == .up then popBlocks d n 150 else (List.replicate 150 idleBlock, d)
  let blocks := x.1
  let o := takeOam x.2 n
  let d := o.2
  let msg := buildService d n true o.1
  let s := scrAt p
  let payload := (List.range 3).map fun i => blocksMsg ((blocks.drop (50 * i)).take 50)
  let d := d.emit (.upstream n p.train.useq d.stamp (codewordsLevels payload s))
  let stamp := d.stamp
  d.modPort n fun p => { p with
    line := { p.line with
      stampUs := stamp, svc := some msg, svcScr := scrAdvance (3 * codewordBits) s, nextUs := scrAdvance superframeBitsUs s,
      dsSent := if p.line.dsTarget.isSome then p.line.dsSent + 1 else p.line.dsSent },
    oam := { p.oam with cmds := sentCmd (sentCmd p.oam.cmds (firstCmd p false)) (firstCmd p true) },
    rtx := { p.rtx with dsAnchor := followEpoch d p },
    train := { p.train with useq := p.train.useq + 1 } }

/-- The PAM4 switch: USEQ restarts, the scramblers take the operational seeds, and identities count from SEQ 0, whose superframe begins
T_CAM after this one arrives; what the old link left is played out at its own times (R56, R113, R184, R198). -/
def pam4Switch (d : Dev) (n : Fin 16) : Dev :=
  (toPhase d n 6).modPort n fun p => boundTaps { p with
    train := { p.train with
      useq := 0, switch := none, start := none, fecLock := false, goodRun := 0, badRun := 0, locked := false, measured := false },
    line := { p.line with nextUs := p.line.seedUs, oldSeed := p.line.rxSeed, rxSeed := p.line.seedDs },
    oam := { p.oam with reqAck := none },
    rtx := { (if p.rtx.draining then p.rtx else { p.rtx with entries := [], maps := [], newest := none }) with
      dsAnchor := some (0, epochReturn d p) } }

/-- A superframe of phases 2–5: START and SWITCH take effect, or a SWITCH without its echo is moved (R107, R113). -/
def trainingStart (d : Dev) (n : Fin 16) : Dev :=
  let p := d.port n
  let u := p.train.useq
  if p.train.dropStd != 0 then trainingSuperframe d n
  else if p.link.phase == 5 && p.train.switch == some u && p.train.echoed then operationalSuperframe (pam4Switch d n) n
  else if p.link.phase == 5 && !p.train.echoed then
    let late := match p.train.switch with
      | some s => decide ((s - u).toInt ≤ 2)
      | none => true
    trainingSuperframe (if late then
      d.modPort n fun p => { p with train := { p.train with switch := some (placeUseq u 8) } } else d) n
  else if p.link.phase == 2 && p.train.start == some u then trainingSuperframe (takeSources (toPhase d n 3) n) n
  else trainingSuperframe d n

/-- Reef entry at the accepted u, or at once where its acceptance came after u; an entry that could not be withdrawn in time is left at once (R133, R135, R136). -/
def reefAtU (d : Dev) (n : Fin 16) : Dev :=
  let p := d.port n
  match p.line.reefAt with
  | some (level, u) =>
    if 0 ≤ (p.train.useq - u).toInt then
      let d := enterReef d n level.toNat
      if p.line.reefCancel then exitReef d n true else d
    else d
  | none => d

/-- The hub sends upstream superframes now. -/
def sendsUpstream (p : Port) : Bool :=
  p.link.mode.gletik && (p.link.st == .up || p.link.st == .reef1 ||
    (p.link.st == .training && decide (2 ≤ p.link.phase.toNat) && !p.train.anRun && !p.train.pmaRun && !p.train.toneOn))

def upstreamSuperframeStart (n : Fin 16) (d : Dev) : Dev :=
  let d := if (d.port n).link.st == .up || (d.port n).link.st == .reef1 then reefAtU d n else d
  let p := d.port n
  if !sendsUpstream p then d
  else if p.link.st == .training && decide (p.link.phase.toNat ≤ 5) then trainingStart d n
  else operationalSuperframe d n

/-! ### The rows -/

def execCodewordReceived (n : Fin 16) (seq : Seq) (slot : BitVec 4) (r : CwLine) (arrival : Arrival) (s : State) :
    Host.Outcome State Fault Refusal :=
  onLive s (codewordReceived n seq slot r arrival)

def execDownstreamServiceCodeword (n : Fin 16) (msg : BitVec 3250) (roundTrip : Option Nat) (s : State) :
    Host.Outcome State Fault Refusal :=
  onLive s (downstreamServiceCodeword n msg roundTrip)

def execReqMapBuild (n : Fin 16) (s : State) : Host.Outcome State Fault Refusal := onLive s (reqMapBuild n)

def execPlayout (n : Fin 16) (seq : Seq) (slot : BitVec 4) (s : State) : Host.Outcome State Fault Refusal :=
  onLive s (playout n seq slot)

def execLossEpisodeEnd (n : Fin 16) (s : State) : Host.Outcome State Fault Refusal := onLive s (lossEpisodeEnd n)

def execLoadWindowEnd (n : Fin 16) (s : State) : Host.Outcome State Fault Refusal := onLive s (loadWindowEnd n)

def execFreshnessTimeout (n : Fin 16) (stream : Fin 4) (s : State) : Host.Outcome State Fault Refusal :=
  onLive s (freshnessTimeout n stream)

def execUpstreamSuperframeStart (n : Fin 16) (s : State) : Host.Outcome State Fault Refusal :=
  onLive s (upstreamSuperframeStart n)

end Sys2Proof.Machine
end

