-- ==== Sys2Proof/Machine/Calendar.lean ====
section
/-! DEFINITION. The calendar: when an entry is due, what its action does, the received blanking and what it admits, trigger
commands, and the planned mode switch (R126–R132, R285, R293, R300–R308). -/
namespace Sys2Proof.Machine

/-! ### Entries -/

/-- The order of R306. -/
def actRank (a : W8) : Nat :=
  match a.toNat with
  | 5 => 0 | 7 => 1 | 1 => 2 | 2 => 3 | 3 => 4 | 8 => 5 | 6 => 6 | 4 => 7 | _ => 8

/-- A TRIG_OUT that goes to a camera. -/
def CalEntry.camera (e : CalEntry) : Bool := e.action == 0x06 && bit e.arg 31

/-- CAL_STEP and BIST_SLICE. -/
def CalEntry.isWork (e : CalEntry) : Bool := e.action == 0x02 || e.action == 0x03

/-- Budgets of R303, in ticks. -/
def budget (a : W8) : Nat :=
  match a.toNat with
  | 2 => usTicks 10 | 3 => usTicks 40 | 7 => 122100 | _ => 0

/-- The capture that a CAPTURE_START names. -/
def CalEntry.capId (e : CalEntry) : W16 := e.arg.setWidth 16

/-- The controller that an action needs is down (R26, R303). -/
def waitsPc (d : Dev) (e : CalEntry) (n : Fin 16) : Bool :=
  if e.isWork then !(d.port n).pc.up
  else if e.action == 0x08 then
    match captureWaits d e.capId with
    | some m => !(d.port m).pc.up
    | none => false
  else false

/-- TRG_LEAD and WAIT_MAX in ticks, reserved values as the device uses them (R321). -/
def trgLead (d : Dev) : Nat := let v := fld d.hal.calCfg 15 0; usTicks (if v < 40 then 100 else v)
def waitMax (d : Dev) : Nat := let v := fld d.hal.calCfg 31 24; usTicks ((if v == 0 then 10 else v) * 100000)

/-- The trigger DT of an entry without a BLANK trigger (R302, R304, R307). -/
def trigDt (d : Dev) (e : CalEntry) : W64 :=
  if e.trig == 0 then e.time else if onRaster e && d.raster.avail then tickOf (posT16 d.raster d.t16 e) else e.fallback

def findEntry' (d : Dev) (i : Nat) (a : W8) : Option CalEntry := d.hal.cal.find? fun e => e.idx == i && e.action == a

/-! ### The planned mode switch (R126, R127, R129, R131, R132) -/

/-- The departure of u: the abbreviated switch from the coefficients derived for it, or the move to 10GBASE-T1 in training framing. The
mode left and its run of losses are kept for an L0 trigger of the same tick (R126). -/
def switchMode (d : Dev) (n : Fin 16) (m : LineMode) : Dev :=
  let was := d.port n
  let l := was.line
  let d := enterSt (cancelArmed d n) n .training
  let d := d.modPort n fun p => { p with line := { p.line with
    switched := some { tick := d.dt.dt, mode := was.link.mode, bad := was.train.badRun, ne := was.shr.ne, fe := was.shr.fe },
    oldSeed := l.rxSeed } }
  if m == .t10g then
    d.modPort n fun p => { p with
      link := { p.link with phase := 3, phaseAt := d.dt.dt },
      train := { pcSet := p.train.pcSet, useq := was.train.useq, dropStd := 8 } }
  else
    let d := setLineMode d n m
    let d := d.modPort n fun p => { p with
      link := { p.link with phase := 6, phaseAt := d.dt.dt, fast := true },
      train := { pcSet := l.dsPcSet, abbrev_ := true },
      rx := { p.rx with live := l.dsCoefs },
      oam := { p.oam with reqAck := none },
      rtx := { p.rtx with dsAnchor := some (0, epochReturn d p) },
      line := { p.line with
        seedUs := l.dsSeedUs, seedDs := l.dsSeedDs, nextUs := l.dsSeedUs, rxSeed := l.dsSeedDs, ntap := l.dsNtap,
        taps := l.dsTaps, dsTarget := none, dsSent := 0, dsTries := 0 } }
    takeSources (d.modPort n boundTaps) n

/-- The close of the received blanking that an instant lies in. -/
def blankClose (d : Dev) (n : Fin 16) (t : Int) : Option Int :=
  match nextBlank d n (t + 1) with
  | some (o, len) =>
    match nextBlank d n (o - d.raster.frameLen) with
    | some (was, _) => if was ≤ t ∧ t < was + len then some (was + len) else none
    | none => none
  | none => none

/-- MODE_SWITCH fires: without received blanking it counts at once, otherwise when its outage outlasts the window. It fires at u also
where the answer to GLK_SWITCH has not come by then (DESIGN CHOICE, assumption 175). -/
def modeSwitchAt (d : Dev) (n : Fin 16) (m : LineMode) : Dev × Bool :=
  if (d.port n).link.st != .up then (d, false)
  else
    match blankClose d n d.t16 with
    | some t =>
      let d := switchMode d n m
      (d.modPort n fun p => { p with line := { p.line with dsEnd := some (tickOf t) } }, true)
    | none =>
      let d := switchMode (countUnblanked d) n m
      (d.modPort n fun p => { p with line := { p.line with switched := p.line.switched.map fun x => { x with counted := true } } }, true)

/-- The first multiple of 4 whose superframe departs at or after an instant, at least 8 ahead. -/
def useqAt (p : Port) (t : W64) : Seq :=
  let k := ((t - p.line.stampUs.dt).toNat + 2399) / 2400
  placeUseq p.train.useq (max 8 (if p.line.stampUs.dt < t then k - 1 else 0))

/-- The instant from which step 3 of R129 takes u. AHEAD = 0, for which the rules give no reading, is taken as 2, the field's reset
value (DESIGN CHOICE, assumption 175). -/
def switchFrom (d : Dev) (n : Fin 16) : W64 :=
  let ahead := fld (d.port n).cfg.dsCfg 15 12
  let ahead := if ahead == 0 then 2 else ahead
  let k := (d.raster.posAt d.t16).frame + BitVec.ofNat 32 ahead
  match nextBlank d n (d.raster.frameStart d.t16 k) with
  | some (t, _) => dtOf t
  | none =>
    d.dt.dt + BitVec.ofNat 64 (if d.raster.set then ahead * d.raster.frameLen / 65536 else ahead * nominalFrame)

/-- GLK_SWITCH_WRITE: step 3 of R129; a move to 10GBASE-T1 writes nothing. -/
def glkSwitchWrite (n : Fin 16) (d : Dev) : Dev :=
  let p := d.port n
  match p.line.dsTarget with
  | none => d
  | some m =>
    if p.link.st != .up || p.line.dsSent < 4 || switchAsked p || d.hal.cal.any (fun e => e.ownOf n && e.action == 0x07) then d
    else
      let u := useqAt p (switchFrom d n)
      let d := d.modPort n fun p => { p with line := { p.line with dsUseq := u, dsTries := p.line.dsTries + 1 } }
      let d := if m == .t10g then d else glkWrite d n glkSwitchAddr (at_ 28 m.code ||| at_ 0 u.toNat)
      placeEntry d {
        idx := 0, trig := 0, time := departs p u, rep := 0, ports := portMask n, action := 0x07, arg := at_ 0 m.code,
        handle := 0xFFFF }

/-! ### Actions (R303) -/

/-- ADAPT_STEP: the held updates, and the ramps that wait (R147, R165); one whose source has just turned invalid goes to OUT instead
(R163). -/
def adaptPort (d : Dev) (n : Fin 16) : Dev :=
  d.modPort n fun p =>
    let p := if p.rx.held then copyShadow p false else p
    let g (s : Fin 16) (far : Bool) (f : Filt) : Filt :=
      if f.st != fWait then f else if srcValid d s far then toRampIn d n f else toOut d.dt.dt
    { p with shr := { p.shr with
      ne := Vector.ofFn fun s => g s false p.shr.ne[s.val], fe := Vector.ofFn fun s => g s true p.shr.fe[s.val] } }

/-- One test slice ends (R549, R558, R559): a failing row is handled under R554, and the pass goes on. -/
def sliceDone (d : Dev) (n : Fin 16) (e : CalEntry) (failing : Option (BitVec 7)) : Dev :=
  let id : Fin 8 := ⟨fld e.arg 28 24 % 8, Nat.mod_lt _ (by decide)⟩
  let array := fld e.arg 19 16
  let first := fld e.arg 6 0
  let d := match failing with
    | some r =>
      if first ≤ r.toNat ∧ r.toNat < first + 32 then
        let d := match (d.port n).bist.op with
          | some h => partFails d h (BitVec.ofNat 32 (2 ^ n.val)) (BitVec.ofNat 32 (2 ^ id.val))
          | none => d
        rowFails d n id array r.toNat
      else d
    | none => d
  let b := (d.port n).bist
  if !b.passRun then d
  else if b.slice.toNat + 1 < (passSlices (passTests d b)).length then
    placeSlice (d.modPort n fun p => { p with bist := { p.bist with slice := p.bist.slice + 1 } }) n
  else endPass d n

/-- REEF_ENTER, without effect in the tick of a REEF_EXIT, or where the entry is under way already. -/
def reefEnterAt (d : Dev) (n : Fin 16) (level : Nat) : Dev × Bool :=
  let p := d.port n
  if p.link.exitTick == some d.dt.dt then (d, false)
  else if level == 1 && p.link.st == .up then (startReef1 d n, p.link.mode.std || (reefPlan p).isNone)
  else if level == 2 && p.link.st == .reef1 then
    (startReef2 d n, if p.link.mode.std then bit p.link.stdNow 22 && !p.std.handshake else (reefPlan p).isNone)
  else (d, false)

def reefExitAt (d : Dev) (n : Fin 16) : Dev × Bool :=
  let p := d.port n
  let in_ := p.link.st == .reef1 || p.link.st == .reef2
  let d := d.modPort n fun p => { p with
    link := { p.link with exitTick := some d.dt.dt }, std := if in_ then { p.std with wakeSrc := 2 } else p.std }
  (wakePort d n true, in_)

/-- What an action does at one port; the flag says that it took effect. -/
def actAt (d : Dev) (e : CalEntry) (n : Fin 16) (failing : Option (BitVec 7)) (unblanked : Bool) : Dev × Bool :=
  match e.action.toNat with
  | 1 => if (d.port n).link.st == .up then (adaptPort d n, true) else (d, false)
  | 2 => (applyStep d n (fld e.arg 23 16) (BitVec.ofNat 8 (fld e.arg 7 0)) unblanked, true)
  | 3 => (sliceDone d n e failing, true)
  | 4 => reefEnterAt d n (fld e.arg 1 0)
  | 5 => reefExitAt d n
  | 6 => if bit e.sent n.val then (d, true) else ({ d with hal := { d.hal with unsent := d.hal.unsent + 1 } }, false)
  | 7 => modeSwitchAt d n (lineModeOf (fld e.arg 3 0))
  | _ => (d, false)

/-- What a firing does, at the ports it is for. -/
def act (d : Dev) (e : CalEntry) (ports : List (Fin 16)) (failing : Option (BitVec 7)) (unavail late unblanked : Bool) :
    Dev × Bool :=
  if e.action == 0x09 then
    (eventTo d e.fn d.stamp (if unavail then {} else d.rpos) 0x0004 0 (leBytes 4 e.arg.toNat) e.handle late, true)
  else if e.action == 0x08 then
    match captureWaits d e.capId with
    | some _ => (startCapture d e.capId, true)
    | none => (d, false)
  else if e.action == 0x06 && !e.camera then
    if fld d.hal.fsyncCfg 15 14 == 1 then ({ d with hal := { d.hal with fsyncHigh := true, fsyncAt := d.dt.dt } }, true) else (d, false)
  else
    ports.foldl (fun x n =>
      let y := actAt x.1 e n failing unblanked
      (y.1, x.2 || y.2)) (d, false)

/-! ### Firing (R302, R308) -/

/-- A position that lies k steps of a period on, past an instant. -/
def stepsPast (at' now period : Int) : Nat := if period ≤ 0 then 1 else max 1 ((now - at') / period + 1).toNat

/-- A repeating entry after a firing at some ports (R285, R300). -/
def renewed (d : Dev) (ports : List (Fin 16)) (e : CalEntry) : CalEntry :=
  if e.trig == 0 then
    let p := usTicks e.rep.toNat
    { e with time := e.time + BitVec.ofNat 64 (p * stepsPast e.time.toNat d.dt.dt.toNat p), sent := 0, waiting := false }
  else
    let frames := e.rep.toNat
    if onRaster e then
      let len := d.raster.frameLen
      let k := frames * (if d.raster.avail then stepsPast (posT16 d.raster d.t16 e) d.t16 (frames * len : Nat) else 1)
      { e with
        frame := e.frame + BitVec.ofNat 32 k,
        fallback := e.fallback + BitVec.ofNat 64 (k * (if d.raster.set then len / 65536 else nominalFrame)),
        sent := 0, waiting := false }
    else
      let next (n : Fin 16) : Fin 16 × W64 × Bool :=
        (n, d.dt.dt + BitVec.ofNat 64 (if frames ≤ 1 then 0 else frames * d.raster.frameLen / 65536 - d.raster.frameLen / 131072), false)
      { e with
        fallback := d.dt.dt + BitVec.ofNat 64 (frames * nominalFrame + if e.camera then trgLead d else 0),
        plan := (e.plan.filter fun x => !ports.contains x.1) ++ ports.map next,
        sent := ports.foldl (fun m n => setBit m n.val false) e.sent, waiting := false }

/-- RESULT0 of a SCHEDULE (R346). -/
def fireResult (took unavail late : Bool) : W32 := atB 0 took ||| atB 1 unavail ||| atB 2 late

/-- An entry fires at some ports: it is renewed, or removed once every port is done, and its handle completes (R308). -/
def fire (d : Dev) (e : CalEntry) (ports : List (Fin 16)) (failing : Option (BitVec 7)) (unavail late unblanked : Bool) :
    Dev :=
  let all := e.trig != 3 || ports.foldl (fun m n => m ||| portMask n) e.done == e.ports
  let d :=
    if e.rep != 0 then modEntry d e.idx (renewed d ports)
    else if all then dropEntries d fun x => x.idx == e.idx
    else modEntry d e.idx fun x => { x with done := ports.foldl (fun m n => m ||| portMask n) x.done }
  let d := if late then { d with hal := { d.hal with late := satInc d.hal.late } } else d
  let d := if unblanked then countUnblanked d else d
  let x := act d e ports failing unavail late unblanked
  if e.rep != 0 then x.1
  else if all then
    if e.handle == 0xFFFF then x.1 else endOp x.1 e.handle stSuccess 0 (fireResult (e.took || x.2) unavail late)
  else modEntry x.1 e.idx fun y => { y with took := e.took || x.2 }

def markWaiting (d : Dev) (e : CalEntry) : Dev := modEntry d e.idx fun x => { x with waiting := true }

/-- An entry without a BLANK trigger fires at its trigger; a CAPTURE_START waits for its controller, and then for received
blanking where there is one (R26). -/
def fireTimed (d : Dev) (e : CalEntry) (failing : Option (BitVec 7)) : Dev :=
  let d := d.reach (trigDt d e)
  match captureWaits d e.capId with
  | some m =>
    if e.action == 0x08 && !(d.port m).pc.up then markWaiting d e
    else
      let d := if e.action == 0x08 && e.waiting then
          match nextBlank d m d.t16 with
          | some (t, _) => d.reach (tickOf t)
          | none => d
        else d
      fire d e (maskPorts e.ports) failing (onRaster e && !d.raster.avail) false false
  | none => fire d e (maskPorts e.ports) failing (onRaster e && !d.raster.avail) false false

/-- When a BLANK entry fires at a port: its DT, RASTER_UNAVAILABLE, and that its work runs past the window (R303–R305). -/
def blankWhen (d : Dev) (e : CalEntry) (n : Fin 16) : Option (W64 × Bool × Bool) :=
  let p := d.port n
  if bit e.done n.val || waitsPc d e n then none
  else if e.isWork && p.link.st != .up then some (d.dt.dt, false, false)
  else if p.raster.st == .none then if e.isWork then none else some (e.fallback, true, false)
  else
    match e.plan.find? fun x => x.1 == n && x.2.2 with
    | some x =>
      let len := match nextBlank d n d.t16 with
        | some (_, l) => l / 65536
        | none => 0
      some (x.2.1, false, decide (len < budget e.action))
    | none => none

/-! ### Received blanking (R299, R305) -/

/-- A BLANK entry that may start at port n in a window that opens at a DT. -/
def admissible (d : Dev) (n : Fin 16) (open_ : W64) (e : CalEntry) : Bool :=
  e.trig == 3 && bit e.ports n.val && !bit e.done n.val && !e.camera && !waitsPc d e n &&
  !(e.isWork && (d.port n).link.st != .up) &&
  match e.plan.find? fun x => x.1 == n with
  | some x => !x.2.2 && decide (x.2.1 ≤ open_)
  | none => true

def planAt (d : Dev) (e : CalEntry) (n : Fin 16) (t : W64) : Dev :=
  modEntry d e.idx fun x => { x with plan := (n, t, true) :: x.plan.filter fun y => y.1 != n, waiting := false }

/-- One entry is admitted, if the budgets admitted so far leave room; one that is longer than the window takes a window that holds
nothing else. `x` holds the sum of the budgets, and whether the window holds anything. -/
def admitOne (n : Fin 16) (open_ : W64) (len : Nat) (switch : Bool) (x : Dev × Nat × Bool) (e : CalEntry) : Dev × Nat × Bool :=
  let b := budget e.action
  let used := x.2.1
  if switch && e.isWork then (markWaiting x.1 e, x.2)
  else if used + b ≤ len || (len < b && !x.2.2) then (planAt x.1 e n (open_ + BitVec.ofNat 64 used), used + b, true)
  else (markWaiting x.1 e, x.2)

/-- Entries in the order of R306. -/
def inOrder (l : List CalEntry) : List CalEntry := (List.range 9).flatMap fun r => l.filter fun e => actRank e.action == r

/-- A port's received blanking opens (R305). -/
def openBlank (n : Fin 16) (d : Dev) : Dev :=
  let o := match nextBlank d n d.t16 with
    | some (t, len) => if t == (d.port n).raster.opened then nextBlank d n (t + 1) else some (t, len)
    | none => none
  match o with
  | none => d
  | some (t, len) =>
    let open_ := tickOf t
    let len := len / 65536
    let d := d.reach open_
    let d := d.modPort n fun p => { p with raster := { p.raster with opened := t } }
    let switch := d.hal.cal.any fun e =>
      e.action == 0x07 && bit e.ports n.val && decide (open_ ≤ e.time) && decide ((e.time - open_).toNat < len)
    ((inOrder (d.hal.cal.filter (admissible d n open_))).foldl (admitOne n open_ len switch) (d, 0, switch)).1

/-- The ports at which a BLANK entry fires first, with that firing. -/
def firstPorts (d : Dev) (e : CalEntry) : Option (W64 × List (Fin 16) × Bool × Bool) :=
  let l := (maskPorts e.ports).filterMap fun n => (blankWhen d e n).map fun w => (n, w)
  match l with
  | [] => none
  | x :: xs =>
    let t := xs.foldl (fun t y => if y.2.1 < t then y.2.1 else t) x.2.1
    let now := l.filter fun y => y.2.1 == t
    some (t, now.map (·.1), now.any (·.2.2.1), now.any (·.2.2.2))

/-- The received blanking that a BLANK entry waits for opens at its ports, where nothing is planned for it yet. -/
def openFor (d : Dev) (e : CalEntry) : Dev :=
  if e.trig == 3 && (firstPorts d e).isNone && !e.camera then (maskPorts e.ports).foldl (fun d n => openBlank n d) d else d

/-- A BLANK entry fires at its next port, where blanking has opened there. -/
def fireBlank (d : Dev) (e : CalEntry) (failing : Option (BitVec 7)) : Dev :=
  match firstPorts d e with
  | some f => fire (d.reach f.1) e f.2.1 failing f.2.2.1 false f.2.2.2
  | none => markWaiting d e

def fireEntry (d : Dev) (e : CalEntry) (failing : Option (BitVec 7)) : Dev :=
  if e.trig == 3 then fireBlank d e failing else fireTimed d e failing

/-- The tick in which an entry is to fire next, as things stand. -/
def entryTick (d : Dev) (e : CalEntry) : Option W64 :=
  if e.action == 0x08 && (match captureWaits d e.capId with | some m => !(d.port m).pc.up | none => false) then none
  else if e.trig == 3 then (firstPorts d e).map (·.1)
  else some (trigDt d e)

/-- Of two entries that fire in one tick, the one that takes effect first (R306). -/
def goesBefore (x e : CalEntry) : Bool :=
  decide (actRank x.action < actRank e.action) || (actRank x.action == actRank e.action && decide (x.idx < e.idx))

/-- An entry fires ahead of its row; what is left of a repeating one remembers it. -/
def fireAhead (d : Dev) (e : CalEntry) : Dev := modEntry (fireEntry d e none) e.idx fun x => { x with ahead := true }

/-- The entries that fire in the same tick as e and take effect before it do so first (R306). A test slice is not among them: its row
brings its outcome (assumption 181). -/
def fireFirst (d : Dev) (e : CalEntry) : Dev :=
  match entryTick d e with
  | none => d
  | some t =>
    let l := d.hal.cal.filter fun x => goesBefore x e && x.action != 0x03 && !x.ahead && entryTick d x == some t
    (inOrder l).foldl (fun d x =>
      match findEntry' d x.idx x.action with
      | some x => fireAhead d x
      | none => d) d

/-- A row that names an entry takes place when the entry fires; it has nothing left to do where the entry has fired ahead of it. -/
def fireRow (i : Nat) (a : W8) (failing : Option (BitVec 7)) (d : Dev) : Dev :=
  match findEntry' d i a with
  | none => d
  | some e =>
    if e.ahead then modEntry d i fun x => { x with ahead := false }
    else
      let d := openFor d e
      let d := fireFirst d ((findEntry' d i a).getD e)
      match findEntry' d i a with
      | some e => fireEntry d e failing
      | none => d

/-- WAIT_MAX passes for a CAL_STEP whose port has no received blanking (R304). -/
def calWait (i : Nat) (d : Dev) : Dev :=
  match findEntry' d i 0x02 with
  | none => d
  | some e =>
    match (maskPorts e.ports).find? fun n =>
        (d.port n).link.st == .up && (nextBlank d n d.t16).isNone && (d.port n).pc.up with
    | some n => fire (d.reach (e.fallback + BitVec.ofNat 64 (waitMax d))) e [n] none false false true
    | none => d

/-! ### Trigger commands (R76, R307) -/

/-- The trigger command of a TRIG_OUT. -/
def trigCmd (p : Port) (e : CalEntry) (t : W64) : Port :=
  sendCmd p 8 (some (BitVec.ofNat 8 (fld e.arg 23 16))) (BitVec.ofNat 112 (fld e.arg 15 0 * 2 ^ 64 + t.toNat))

def sendTrig (d : Dev) (e : CalEntry) (n : Fin 16) (t : W64) : Dev :=
  if (d.port n).link.st == .up && !followRole d then
    modEntry (d.modPort n fun p => trigCmd p e t) e.idx fun x => { x with sent := x.sent ||| portMask n }
  else d

/-- The trigger DT of a BLANK entry at a port whose command has not gone out. -/
def blankTrigger (d : Dev) (e : CalEntry) (n : Fin 16) : Option W64 :=
  if bit e.done n.val || (e.plan.any fun x => x.1 == n && x.2.2) then none
  else if (d.port n).raster.st == .none then if bit e.sent n.val then none else some e.fallback
  else
    let after := match e.plan.find? fun x => x.1 == n with
      | some x => max ((x.2.1.toNat * 65536 : Nat) : Int) (d.t16 + (trgLead d * 65536 : Nat))
      | none => d.t16 + (trgLead d * 65536 : Nat)
    (nextBlank d n after).map fun x => tickOf x.1

/-- TRIGGER_COMMAND_SEND: the command leaves TRG_LEAD before its DT. -/
def triggerSend (i : Nat) (d : Dev) : Dev :=
  match findEntry' d i 0x06 with
  | none => d
  | some e =>
    if !e.camera then d
    else
      let lead := BitVec.ofNat 64 (trgLead d)
      if e.trig == 3 then
        let l := (maskPorts e.ports).filterMap fun n => (blankTrigger d e n).map fun t => (n, t)
        match l with
        | [] => d
        | x :: xs =>
          let t := xs.foldl (fun t y => if y.2 < t then y.2 else t) x.2
          let d := d.reach (t - lead)
          (l.filter fun y => y.2 == t).foldl (fun d y =>
            let d := sendTrig d e y.1 t
            if (d.port y.1).raster.st == .none then d else planAt d e y.1 t) d
      else if e.sent != 0 then d
      else
        let t := trigDt d e
        (maskPorts e.ports).foldl (fun d n => sendTrig d e n t) (d.reach (t - lead))

/-! ### Steps of DT and of the raster (R285, R293) -/

/-- Insertion into a list ordered by a key. -/
def insertBy (key : CalEntry → Nat) (e : CalEntry) : List CalEntry → List CalEntry
  | [] => [e]
  | x :: xs => if key e < key x then e :: x :: xs else x :: insertBy key e xs

def sortBy (key : CalEntry → Nat) (l : List CalEntry) : List CalEntry := l.foldl (fun acc e => insertBy key e acc) []

/-- An entry fires at once and late, if it still stands. -/
def fireLateOne (d : Dev) (e : CalEntry) : Dev :=
  match findEntry' d e.idx e.action with
  | some e => fire d e (maskPorts e.ports) none (onRaster e && !d.raster.avail) true false
  | none => d

/-- The next frame in which a line and phase come. -/
def nextLineFrame (d : Dev) (e : CalEntry) : W32 :=
  let k := (d.raster.posAt d.t16).frame
  if posT16 d.raster d.t16 { e with frame := k } < d.t16 then k + 1 else k

/-- After a new raster: LINE triggers take their next occurrence on it, and entries whose position has passed fire late
(R293). -/
def fireLate (d : Dev) : Dev :=
  let one (e : CalEntry) : CalEntry := if e.trig == 2 then { e with frame := nextLineFrame d e } else e
  let d := { d with hal := { d.hal with cal := d.hal.cal.map one } }
  (inOrder (d.hal.cal.filter fun e => e.trig == 1 && decide (posT16 d.raster d.t16 e < d.t16))).foldl fireLateOne d

/-- What a change of the raster's state does for the entries that waited for an available raster (R304): those that it has passed fire
late (R293). -/
def onAvail (d : Dev) (f : Dev → Dev) : Dev :=
  let t := f d
  if t.raster.avail && !d.raster.avail then fireLate t else t

/-- A forward step fires the DT entries of the interval it skips, in trigger order (R285). -/
def fireSkipped (lo hi : W64) (d : Dev) : Dev :=
  if lo < hi then
    let l := inOrder (d.hal.cal.filter fun e => e.trig == 0 && decide (lo < e.time) && decide (e.time ≤ hi))
    (sortBy (fun e => e.time.toNat) l).foldl fireLateOne d
  else d

/-- A step of DT with all it does to the calendar. -/
def stepTime (d : Dev) (e : Int) : Dev :=
  let lo := d.dt.dt
  let d := stepDt d e
  let d := fireSkipped lo d.dt.dt d
  if effLock d == 0 && d.raster.avail then fireLate d else d

/-! ### The rows -/

def execFsyncEdge (rising : Bool) (s : State) : Host.Outcome State Fault Refusal :=
  onLive s fun d =>
    let x := fsyncEdge d rising
    if x.2 || (x.1.raster.avail && !d.raster.avail) then fireLate x.1 else x.1

def execRasterTakeover (s : State) : Host.Outcome State Fault Refusal :=
  onLive s fun d => if d.raster.next.isSome then
      let t := rasterTakeover d
      if t.raster.next.isNone then fireLate t else t
    else d

def execBlankingOpen (n : Fin 16) (s : State) : Host.Outcome State Fault Refusal := onLive s (openBlank n)

def execTriggerCommandSend (i : Fin 4096) (s : State) : Host.Outcome State Fault Refusal := onLive s (triggerSend i.val)

def execAdaptStep (i : Fin 4096) (s : State) : Host.Outcome State Fault Refusal := onLive s (fireRow i.val 0x01 none)

def execCalStep (i : Fin 4096) (s : State) : Host.Outcome State Fault Refusal := onLive s (fireRow i.val 0x02 none)

def execBistSlice (i : Fin 4096) (failing : Option (BitVec 7)) (s : State) : Host.Outcome State Fault Refusal :=
  onLive s (fireRow i.val 0x03 failing)

def execReefEnter (i : Fin 4096) (s : State) : Host.Outcome State Fault Refusal := onLive s (fireRow i.val 0x04 none)

def execReefExit (i : Fin 4096) (s : State) : Host.Outcome State Fault Refusal := onLive s (fireRow i.val 0x05 none)

def execTrigOut (i : Fin 4096) (s : State) : Host.Outcome State Fault Refusal := onLive s (fireRow i.val 0x06 none)

def execModeSwitch (i : Fin 4096) (s : State) : Host.Outcome State Fault Refusal := onLive s (fireRow i.val 0x07 none)

def execCaptureStart (i : Fin 4096) (s : State) : Host.Outcome State Fault Refusal := onLive s (fireRow i.val 0x08 none)

def execTimestamp (i : Fin 4096) (s : State) : Host.Outcome State Fault Refusal := onLive s (fireRow i.val 0x09 none)

def execCalWaitExpiry (i : Fin 4096) (s : State) : Host.Outcome State Fault Refusal := onLive s (calWait i.val)

def execGlkSwitchWrite (n : Fin 16) (s : State) : Host.Outcome State Fault Refusal := onLive s (glkSwitchWrite n)

end Sys2Proof.Machine
end

