-- ==== Sys2Proof/Machine/Std.lean ====
section
/-! DEFINITION. The standard automotive Ethernet modes (R214–R236). -/
namespace Sys2Proof.Machine

/-! ### Start-up (R102, R219) -/

/-- Auto-negotiation resolves a mode that the port advertised: PMA training follows, and the attempt timer stops (R102,
R219). -/
def autonegResolved (n : Fin 16) (mode : LineMode) (master eee oam : Bool) (d : Dev) : Dev :=
  let p := d.port n
  if p.link.st == .training && p.train.anRun && mode.std && mode.inMap p.std.advert.toNat then
    let d := setLineMode d n mode
    let c := p.link.stdNow
    let role := roleOf c master
    let d := d.modPort n fun p => { p with
      link := { p.link with phase := 3, phaseAt := d.dt.dt, attemptTimer := false, fast := false },
      train := { p.train with anRun := false, pmaRun := true },
      std := { p.std with
        mode := mode, master := role, eee := eee && mode == .t10g && bit c 24, oam := oam && bit c 23 } }
    takeSources (refreshExcl (d.emit (.pmaTraining n mode role)) n) n
  else d

/-! ### Link status (R220, R221) -/

/-- link_status = OK: PMA training ends with its last clocks, the port enters UP with what its updates have converged to, within the
bound of the DFE, and
saves its snapshot. The margin follows from the sum of the squared slicer errors, in units of 2^-30, over a number of symbols (R217,
R218). -/
def linkStatusOk (n : Fin 16) (rx : List RxClock) (errSq symbols : Nat) (d : Dev) : Dev :=
  let p := d.port n
  if p.link.st == .training && p.train.pmaRun then
    let margin := (s16 (marginOf p.link.mode errSq symbols 30)).toInt
    let d := (d.setPort n (rxRun d n rx).1).modPort n fun p => boundTaps { p with
      train := { p.train with pmaRun := false }, link := { p.link with marginCur := s16 margin } }
    let d := refreshExcl (enterUp d n) n
    setLive d (srcPort n 0) (decide (margin < 10))
  else d

/-- link_status = FAIL takes the place of the L0 trigger: PMA training again at the same mode and role. -/
def linkStatusFail (n : Fin 16) (d : Dev) : Dev :=
  let p := d.port n
  if upForTrigger d p && p.link.mode.std then
    l0Trigger (d.modPort n fun p => { p with std := { p.std with linkFails := satInc p.std.linkFails } }) n
  else d

/-- The standard's timers, a conflict of forced roles, or the 200 ms of a retrain end the training (R219, R221). -/
def standardTrainingFailure (n : Fin 16) (d : Dev) : Dev :=
  let p := d.port n
  if p.link.st == .training && (p.train.anRun || p.train.pmaRun) then failAttempt d n (if p.train.again then 10 else 8)
  else d

/-! ### Reef, LPI and TC10 (R226–R231) -/

/-- A frame in either direction: a port in REEF1 is UP in the same step, and its own sleep request is aborted. -/
def stdFrameWake (n : Fin 16) (d : Dev) : Dev :=
  let p := d.port n
  if p.link.st == .reef1 && p.link.mode.std then wakePort d n false
  else if p.link.st == .up && p.std.handshake then d.modPort n fun p => { p with std := { p.std with handshake := false } }
  else d

/-- REEF2 by a TC10 handshake. -/
def sleepTc10 (d : Dev) (n : Fin 16) : Dev :=
  (enterReef d n 2).modPort n fun p => { p with std := { p.std with tc10Sleep := p.link.st == .reef2 } }

/-- The link partner's sleep request (R229, R231): accepted with SLEEP_ACK = 1 while no frame waits. -/
def tc10SleepRequest (n : Fin 16) (frameWaiting : Bool) (d : Dev) : Dev :=
  let p := d.port n
  if !p.link.mode.std || !(p.link.st == .up || p.link.st == .reef1) then d
  else if bit p.link.stdNow 22 && bit p.link.stdNow 21 && !frameWaiting then sleepTc10 (d.emit (.tc10Answer n true)) n
  else
    let d := d.emit (.tc10Answer n false)
    if frameWaiting then stdFrameWake n d else d

/-- The answer to the port's own request; a port in REEF1 whose request is rejected, or not answered, tries again after a further
PT_IDLE_T (R228). -/
def tc10SleepAnswer (n : Fin 16) (ack : Bool) (d : Dev) : Dev :=
  let p := d.port n
  if (p.link.st == .reef1 || p.link.st == .up) && p.std.handshake then
    if ack then sleepTc10 d n
    else d.modPort n fun p => { p with
      std := { p.std with handshake := false }, link := { p.link with reefRetry := p.link.reefRetry || p.link.st == .reef1 } }
  else d

/-- No answer within the TC10 time. -/
def tc10SleepTimeout (n : Fin 16) (d : Dev) : Dev := tc10SleepAnswer n false d

/-- The TC10 wake-up pulse: it aborts the port's own handshake, or is an event while the link is up (R230, R231). -/
def tc10WakePulse (n : Fin 16) (d : Dev) : Dev :=
  let p := d.port n
  if !p.link.mode.std then d
  else match p.link.st with
    | .reef2 => exitReef (d.modPort n fun p => { p with std := { p.std with wakeSrc := 1 } }) n false
    | .reef1 | .up =>
      if p.std.handshake then d.modPort n fun p => { p with std := { p.std with handshake := false } }
      else if bit p.link.stdNow 20 then portEvent d n 0x0015 [] else d
    | _ => d

/-- LPI from the line or from the host begins or ends, with EEE active in 10GBASE-T1 (R226): that of the line goes to the lane, and the
activity monitor reads QUIET; that of the host goes to the line as the quiet-refresh cycle. -/
def lpiReceived (n : Fin 16) (fromLine lpi : Bool) (d : Dev) : Dev :=
  let p := d.port n
  if p.link.mode == .t10g && p.std.eee && (p.link.st == .up || p.link.st == .reef1) then
    if fromLine then
      let block := if lpi then lpiBlock else idleBlock
      let d := toLane d n (fun m => .laneBlocks m [block]) [block]
      d.modPort n fun p =>
        let p := { p with std := { p.std with lpiRx := lpi } }
        if lpi then setRich d.dt.dt p .quiet else p
    else if p.link.st == .up then
      (d.modPort n fun p => { p with std := { p.std with lpiTx := lpi } }).emit (.quietRefresh n lpi)
    else d
  else d

/-! ### OAM and the Clause 45 space (R236) -/

/-- One received OAM message: the OAM receive registers of MMD 3 and an event with LEN 0 (R356). -/
def stdOamMessage (n : Fin 16) (msg : W64) (d : Dev) : Dev :=
  let p := d.port n
  if p.link.mode.std && p.std.oam && (p.link.st == .up || p.link.st == .reef1) then
    let word (i : Nat) : W16 := BitVec.ofNat 16 (msg.toNat >>> (16 * i))
    let d := d.modPort n fun p => { p with std := { p.std with
      c45 := (List.range 4).foldl (fun l i => c45Put (c45Key 3 (2314 + i)) (word i) l)
        (c45Put (c45Key 3 2313) 0x8000 p.std.c45) } }
    portEvent d n 0x0014 [0, 0, 0, 0]
  else d

/-! ### The rows -/

def execAutonegResolved (n : Fin 16) (mode : LineMode) (master eee oam : Bool) (s : State) :
    Host.Outcome State Fault Refusal :=
  onLive s (autonegResolved n mode master eee oam)

def execLinkStatusOk (n : Fin 16) (rx : List RxClock) (errSq symbols : Nat) (s : State) : Host.Outcome State Fault Refusal :=
  onLive s (linkStatusOk n rx errSq symbols)

def execLinkStatusFail (n : Fin 16) (s : State) : Host.Outcome State Fault Refusal := onLive s (linkStatusFail n)

def execStandardTrainingFailure (n : Fin 16) (s : State) : Host.Outcome State Fault Refusal :=
  onLive s (standardTrainingFailure n)

def execStdFrameWake (n : Fin 16) (s : State) : Host.Outcome State Fault Refusal := onLive s (stdFrameWake n)

def execTc10SleepRequest (n : Fin 16) (frameWaiting : Bool) (s : State) : Host.Outcome State Fault Refusal :=
  onLive s (tc10SleepRequest n frameWaiting)

def execTc10SleepAnswer (n : Fin 16) (ack : Bool) (s : State) : Host.Outcome State Fault Refusal :=
  onLive s (tc10SleepAnswer n ack)

def execTc10SleepTimeout (n : Fin 16) (s : State) : Host.Outcome State Fault Refusal := onLive s (tc10SleepTimeout n)

def execLpiReceived (n : Fin 16) (fromLine lpi : Bool) (s : State) : Host.Outcome State Fault Refusal :=
  onLive s (lpiReceived n fromLine lpi)

def execStdOamMessage (n : Fin 16) (msg : W64) (s : State) : Host.Outcome State Fault Refusal :=
  onLive s (stdOamMessage n msg)

end Sys2Proof.Machine
end

