-- ==== Sys2Proof/Machine/Clocks.lean ====
section
/-! DEFINITION. Clock sources, the PLLs, holdover, trips and resume (R455–R478). -/
namespace Sys2Proof.Machine

/-! ### Sources (R455–R458, R461) -/

def modClk (d : Dev) (f : ClkSt → ClkSt) : Dev := { d with clk := f d.clk }

/-- The primary reference, by REFSEL. -/
def primary (d : Dev) : Ref := if d.boot.strap.refsel then .refclk else .xtal

def otherRef : Ref → Ref
  | .xtal => .refclk
  | .refclk => .xtal

def refQual (d : Dev) (r : Ref) : Bool := if r == primary d then d.clk.priQual else d.clk.altQual

def refStarted (d : Dev) (r : Ref) : Bool := if r == primary d then d.clk.priStarted else d.clk.altStarted

def setQual (d : Dev) (r : Ref) (q : Bool) : Dev :=
  modClk d fun c => if r == primary d then { c with priQual := q } else { c with altQual := q }

def rport (d : Dev) : Fin 16 := ⟨fld d.clk.lpllCfg 19 16 % 16, Nat.mod_lt _ (by decide)⟩

/-- A candidate's standing condition (R461). -/
def candStands (d : Dev) : ClkSource → Bool
  | .ref r => refStarted d r
  | .partyWall => (d.lane 18).rx == .locked && (d.lane 19).rx == .locked
  | .rport =>
    let p := d.port (rport d)
    p.link.st == .up && p.link.mode.std && !p.std.master

/-- A candidate is qualified: its frequency has been checked since its condition last came to stand (R457, R461). A FOLLOW that confirms or holds keeps LPLL in holdover (R615). -/
def candQual (d : Dev) : ClkSource → Bool
  | .ref r => refQual d r
  | .partyWall => d.clk.pwQual && (d.lane 18).clkOk && (d.lane 19).clkOk && candStands d .partyWall &&
      !(followRole d && d.pair.st != .follow)
  | .rport => d.clk.rportQual && (d.port (rport d)).link.clkOk && candStands d .rport

def candOf (d : Dev) : Nat → Option ClkSource
  | 0 => some (.ref d.clk.refAct)
  | 1 => some .partyWall
  | 2 => some .rport
  | _ => none

def candidates (d : Dev) : List ClkSource :=
  [fld d.clk.lpllCfg 31 30, fld d.clk.lpllCfg 29 28, fld d.clk.lpllCfg 27 26].filterMap (candOf d)

def firstCand (d : Dev) : Option ClkSource := (candidates d).find? (candQual d)

/-- Where LPLL starts: the first qualified candidate, or else the local reference. -/
def startCand (d : Dev) : Option ClkSource :=
  match firstCand d with
  | some c => some c
  | none => if refQual d d.clk.refAct then some (.ref d.clk.refAct) else none

def isLocal : ClkSource → Bool
  | .ref _ => true
  | _ => false

/-! ### Monitors (R464) -/

/-- A monitor decides, or its decision ends. -/
def monitor (d : Dev) (i : Nat) (src : BitVec 10) (on : Bool) : Dev :=
  let d := modClk d fun c => { c with
    monLive := setBit c.monLive i on, monTrip := if on then setBit c.monTrip i true else c.monTrip }
  setLive d src on

/-! ### LPLL (R459–R463) -/

/-- LPLL moves to an input and slews toward it; a holdover ends. -/
def moveLpll (d : Dev) (c : ClkSource) : Dev :=
  monitor (modClk d fun k => { k with lpllIn := some c, lpll := .slew, holdTimer := false }) 2 0x012 false

/-- With nothing else to take, an active reference that is not qualified gives way to the other one that is (R462, R467). -/
def takeRef (d : Dev) : Dev :=
  if !refQual d d.clk.refAct && refQual d (otherRef d.clk.refAct) then modClk d fun k => { k with refAct := otherRef k.refAct }
  else d

/-- LPLL follows the first qualified candidate, and starts when it stands still. The candidate that it starts on is qualified: LPLL_IN
decides no longer. -/
def reselect (d : Dev) : Dev :=
  match d.clk.lpll with
  | .off =>
    let d := if (startCand d).isSome then d else takeRef d
    match startCand d with
    | some c => monitor (modClk d fun k => { k with lpll := .acquire, lpllIn := some c }) 2 0x012 false
    | none => d
  | .acquire => d
  | .holdover =>
    match firstCand d with
    | some c => moveLpll d c
    | none => d
  | .locked | .slew =>
    match firstCand d with
    | some c => if d.clk.lpllIn == some c then d else moveLpll d c
    | none => d

/-- Holdover (R462). -/
def enterHoldover (d : Dev) : Dev :=
  reselect (monitor (modClk d fun k => { k with lpll := .holdover, lpllIn := none, holdTimer := true }) 2 0x012 true)

/-- A clock trip (R466): safe outputs, its cause, CORE on the active reference or the RC oscillator, and DT on the RC
oscillator while LPLL is gone. -/
def clockTrip (d : Dev) (cause : BitVec 3) : Dev :=
  let d := modClk d fun c => { c with safeCause := cause, coreSrc := if refQual d c.refAct then 1 else 2, holdTimer := c.holdTimer && cause == 3 }
  let d :=
    if cause == 3 then modClk d fun c => { c with hpll := .acquire }
    else
      let d := if lpllRuns d.clk then dtCoarse d else d
      reselect (modClk d fun c => { c with lpll := .off, lpllIn := none, hpll := .off })
  let d := enterSafe d
  let d := if d.sys.mode == .safe then { d with sys := { d.sys with safeByTrip := true } } else d
  refreshFree (if cause == 1 || cause == 4 then moment d 0x017 else d)

/-! ### The rows -/

def startUpDelayExpiry (r : Ref) (d : Dev) : Dev :=
  if r == primary d then modClk d fun c => { c with priStarted := true }
  else if bit d.clk.cfg 30 || d.clk.refAct == r then modClk d fun c => { c with altStarted := true }
  else d

/-- The multiplexer moves to a reference; an LPLL on the local reference follows it. -/
def moveRef (d : Dev) (r : Ref) : Dev :=
  let d := modClk d fun c => { c with refAct := r }
  match d.clk.lpllIn with
  | some (.ref _) =>
    match d.clk.lpll with
    | .off => d
    | .acquire => monitor (modClk d fun c => { c with lpllIn := some (.ref r) }) 2 0x012 false
    | _ => moveLpll d (.ref r)
  | _ => d

/-- The alternate stops (R458). -/
def stopAlt (d : Dev) : Dev :=
  monitor (modClk d fun c => { c with altStarted := false, altQual := false }) 1 0x011 false

/-- A reference that qualifies while LPLL stands still, or acquires from the local reference, and the active one is not qualified, is
taken; the primary takes over from an alternate whose ALT_EN is clear, which then stops (R458, R467). A primary that qualifies in the
tick in which the alternate was so taken is used. The checks against the RC oscillator run again with one that completes (R464; DEDUCED,
assumption 210). -/
def refQualified (d : Dev) (r : Ref) : Dev :=
  let d := setQual d r true
  let d := monitor d (if r == primary d then 0 else 1) (if r == primary d then 0x010 else 0x011) false
  let d := monitor d 6 0x016 false
  let took := !refQual d d.clk.refAct && (match d.clk.lpllIn with | none => d.clk.lpll == .off | some c => isLocal c)
  let back := r == primary d && d.clk.refAct != r
  let tie := back && d.dt.running && d.clk.refAt == some d.dt.dt
  let ends := back && !bit d.clk.cfg 30
  let d := if took || tie || ends then modClk (moveRef d r) fun c => { c with refAt := some d.dt.dt } else d
  if ends then stopAlt d else d

def sourceQualified (c : ClkSource) (d : Dev) : Dev :=
  if !candStands d c then d
  else
    match c with
    | .ref r => reselect (refQualified d r)
    | .partyWall =>
      reselect (pwLanes.foldl (fun d m => d.modLane m fun l => { l with clkOk := true }) (modClk d fun k => { k with pwQual := true }))
    | .rport =>
      let d := d.modPort (rport d) fun p => { p with link := { p.link with clkOk := true } }
      reselect (modClk d fun k => { k with rportQual := true })

/-- DT starts at the first lock (R282). -/
def startDt (d : Dev) : Dev :=
  if !d.dt.running then { d with dt := { d.dt with running := true, coarse := false, unc := 0 } }
  else d

/-- At a wake DT advances by RC cycles x ratio, with its uncertainty; the cycles of the RC oscillator are the rules' to leave
open (R286). A device state record that is lost leaves DT where it was (R500). -/
def sleepDt (d : Dev) : Dev :=
  if d.avs.cellar.record then { d with dt := { d.dt with coarse := true, unc := 0xFFFF_FFFF * 10000000 } }
  else
    let x := d.dt.dt.toNat * 65536 + d.dt.frac.toNat + Config.freeNat d.free * d.avs.rcRatio
    let k := Config.freeNat d.free * d.avs.rcRatio / 65536
    { d with
      free := d.free + 1,
      dt := { d.dt with
        dt := BitVec.ofNat 64 (x / 65536), frac := BitVec.ofNat 16 (x % 65536), coarse := true,
        unc := d.dt.unc + 8 * k + 20000000 } }

def lpllLock (d : Dev) : Dev :=
  if d.clk.lpll == .acquire then
    let d := modClk d fun c => { c with
      lpll := .locked, coreSrc := 0, hpll := if c.hpll == .off then .acquire else c.hpll }
    let d := monitor d 3 0x013 false
    let d := if d.sys.mode == .deep && d.dt.running then sleepDt d else startDt d
    refreshFree (reselect d)
  else d

/-- Every register of the save area at its Reset column, but for those that domain AON itself holds (R499, R500). -/
def loseSaved (d : Dev) : Dev :=
  { d with
    clk := { d.clk with cfg := ({} : ClkSt).cfg, lpllCfg := ({} : ClkSt).lpllCfg, gateRun := 0x3_FFFF, gateSleep := 0x3_FFFF },
    dt := { d.dt with cfg := ({} : DtSt).cfg },
    raster := {},
    hal := {},
    host := { d.host with hquota := 4096 },
    flt := { d.flt with cfg := ({} : FltSt).cfg },
    sys := { d.sys with shrCfg := ({} : SysSt).shrCfg, hlSpare := 7 },
    ports := Vector.ofFn fun n => { d.port n with cfg := {}, diag := { (d.port n).diag with trims := factoryTrims n } },
    lanes := vmap d.lanes fun l => { l with cfg := 0, txeq := ({} : LaneSt).txeq, rxCfg := ({} : LaneSt).rxCfg },
    mem := Vector.ofFn fun x => { d.mem[x.val] with repaired := fusedRows d x.val },
    bist := { d.bist with cfg := ({} : BistSt).cfg, memCfg := ({} : BistSt).memCfg, fusePend := [] },
    age := { d.age with cfg := ({} : AgeSt).cfg, calCfg := ({} : AgeSt).calCfg },
    pair := { d.pair with cfg := 0 } }

/-- CORE is restored from the Cellar (R494, R500). -/
def restoreCore (d : Dev) : Dev :=
  let e := d.avs.cellar
  let bad := e.area || e.record || e.snaps != 0
  let d := { d with pwr := { d.pwr with coreOn := true, cellarOk := !bad } }
  let d := d.eachPort fun d n =>
    if bit e.snaps n.val then d.modPort n fun p => { p with snap := p.snap.map voidSnap } else d
  let d := if e.record then
      d.eachPort fun d n => d.modPort n fun p =>
        if p.link.st == .retired then p else { p with link := { p.link with st := .down } }
    else d
  let d := if e.area then loseSaved d else d
  if bad then moment d 0x022 else d

/-- HPLL locks on LPLL; at a wake CORE is then restored, and PE_WAKE_N is driven (steps 3 and 4 of R494, R496). -/
def hpllLock (d : Dev) : Dev :=
  if d.clk.hpll == .acquire && lpllRuns d.clk then
    let d := monitor (modClk d fun c => { c with hpll := .locked, coreSrc := 0, cleanAt := d.dt.dt }) 4 0x014 false
    if d.sys.mode == .deep then
      let drive := bit d.pwr.cfg 3 && d.avs.wakeBy != some .pcie
      let d := if d.pwr.coreOn then d else restoreCore d
      { d with avs := { d.avs with peWake := drive }, pins := { d.pins with peWakeN := !drive } }
    else d
  else d

def referenceLoss (r : Ref) (d : Dev) : Dev :=
  if !refStarted d r then d
  else
    let d := setQual d r false
    let d := monitor d (if r == primary d then 0 else 1) (if r == primary d then 0x010 else 0x011) true
    let uses := match d.clk.lpllIn with
      | some c => isLocal c
      | none => false
    if d.clk.refAct != r || !uses then d
    else
      let d := monitor d 2 0x012 true
      if refQual d (otherRef r) then moveRef d (otherRef r) else clockTrip d 1

/-- An LPLL that loses its input before it has locked has no frequency to hold, and starts on the next candidate (DEDUCED:
entry 183). -/
def restartLpll (d : Dev) : Dev :=
  let d := reselect (monitor (modClk d fun k => { k with lpll := .off, lpllIn := none }) 2 0x012 true)
  if d.clk.lpllIn.isSome then monitor d 2 0x012 false else d

/-- The candidate in use, other than the local reference, is no longer qualified (R462). -/
def lpllInputLoss (d : Dev) : Dev :=
  match d.clk.lpllIn, d.clk.lpll with
  | some .partyWall, .acquire => restartLpll (modClk d fun c => { c with pwQual := false })
  | some .rport, .acquire => restartLpll (modClk d fun c => { c with rportQual := false })
  | some .partyWall, .locked | some .partyWall, .slew => enterHoldover (modClk d fun c => { c with pwQual := false })
  | some .rport, .locked | some .rport, .slew => enterHoldover (modClk d fun c => { c with rportQual := false })
  | _, _ => d

def holdoverTimeout (d : Dev) : Dev :=
  if d.clk.lpll == .holdover && d.clk.holdTimer then
    let d := takeRef d
    if refQual d d.clk.refAct then moveLpll d (.ref d.clk.refAct) else clockTrip d 4
  else d

/-- LPLL_OUT or HPLL_OUT decides: a running PLL is lost, or one that acquires has not locked in time (R464). -/
def pllOutputLoss (p : Pll) (d : Dev) : Dev :=
  match p with
  | .lpll => if d.clk.lpll == .off then d else clockTrip (monitor d 3 0x013 true) 2
  | .hpll => if d.clk.hpll == .off || bit d.bist.privRun 1 then d else clockTrip (monitor d 4 0x014 true) 3

def pcieRefLoss (d : Dev) : Dev := monitor d 5 0x015 true

def pcieRefReturn (d : Dev) : Dev := monitor d 5 0x015 false

def rcDrift (d : Dev) : Dev := monitor d 6 0x016 true

/-- The offset from the new input is below 0.1 ppm. -/
def slewComplete (d : Dev) : Dev := if d.clk.lpll == .slew then modClk d fun c => { c with lpll := .locked } else d

def clockSwitchForced (d : Dev) : Dev := modClk d fun c => { c with forced := satInc c.forced }

/-- LPLL has locked on a qualified reference (R468). -/
def onReference (d : Dev) : Bool :=
  (d.clk.lpll == .locked || d.clk.lpll == .slew) &&
  match d.clk.lpllIn with
  | some (.ref r) => refQual d r
  | _ => false

/-- The conditions of R468 but for the request and the 256 µs. The PLLs have locked on the reference itself (DEDUCED, assumption
211). -/
def locksHold (d : Dev) : Bool :=
  d.sys.mode == .safe && d.sys.safeByTrip && onReference d && d.clk.hpll == .locked && d.clk.monLive &&& 0x18 == 0

/-- The conditions of R468 but for the request: 256 µs are 64,000 ticks of DT. -/
def canResume (d : Dev) : Bool := locksHold d && decide (64000 ≤ (d.dt.dt - d.clk.cleanAt).toNat)

def afterTrip (d : Dev) : Dev := leaveSafe { d with sys := { d.sys with safeByTrip := false } }

/-- The host asks (R403, R468). -/
def resumeClock (d : Dev) : Dev := if canResume d then afterTrip d else d

/-- 256 µs without a decision are over, with AUTO_RESUME. -/
def clockResume (d : Dev) : Dev := if bit d.clk.cfg 31 && locksHold d then afterTrip d else d

def refPri (m : Master) (d : Dev) : Dev :=
  if reachesAll m && d.clk.priQual && d.clk.refAct != primary d then moveRef d (primary d) else d

def altEnSet (m : Master) (d : Dev) : Dev :=
  if reachesAll m then modClk d fun c => { c with cfg := setBit c.cfg 30 true } else d

def altEnClear (m : Master) (d : Dev) : Dev :=
  if !reachesAll m then d
  else
    let d := modClk d fun c => { c with cfg := setBit c.cfg 30 false }
    if d.clk.refAct == primary d then stopAlt d
    else if d.clk.priQual then stopAlt (moveRef d (primary d))
    else d

/-- CLK_LPLL_CFG is written: the candidates, and the port that may be one (R157, R461). Another port has its frequency yet to be checked:
an LPLL on the former one has lost its input. -/
def lpllCandidateChange (m : Master) (v : W32) (d : Dev) : Dev :=
  if !reachesAll m then d
  else
    let old := rport d
    let d := modClk d fun c => { c with lpllCfg := v &&& 0xFC0F_0000 }
    let d := d.eachPort refreshExcl
    if rport d == old then reselect d
    else
      let d := modClk d fun c => { c with rportQual := false }
      if d.clk.lpllIn == some .rport then lpllInputLoss d else reselect d

def resumeRequest (m : Master) (d : Dev) : Dev := if reachesAll m then resumeClock d else d

/-- LPLL_IN of CLK_STAT: the candidate in use (R473). -/
def lpllInCode (c : ClkSt) : Nat :=
  if c.lpll == .holdover then 3
  else match c.lpllIn with
    | some (.ref _) => 0
    | some .partyWall => 1
    | some .rport => 2
    | none => 3

def lpllCode : PllSt → Nat
  | .off => 0 | .acquire => 1 | .locked => 2 | .holdover => 3 | .slew => 4

/-- GATE_OVR: every override since reset, saturating (R470, R473). -/
def gateCount (d : Dev) : Nat :=
  min 255 (d.clk.gateOvr.toNat + d.sys.gateOvr + (allPorts.map fun n => (d.port n).link.ovr).foldl (· + ·) 0)

/-- CLK_STAT (R473). -/
def clkStat (d : Dev) : W32 :=
  let c := d.clk
  let ref := if refStarted d c.refAct then (if c.refAct == .xtal then 0 else 1) else 2
  at_ 30 ref ||| atB 29 c.priQual ||| atB 28 c.altQual ||| at_ 26 (lpllInCode c) ||| at_ 23 (lpllCode c.lpll) |||
  at_ 21 (min (lpllCode c.hpll) 2) ||| at_ 19 c.coreSrc.toNat ||| at_ 16 c.safeCause.toNat ||| at_ 8 c.forced.toNat |||
  at_ 0 (gateCount d)

/-- A write of a gating register; the register of the present mode counts its overrides (R470). -/
def writeGate (d : Dev) (sleep : Bool) (v : W32) : Dev :=
  let v := v &&& 0x3_FFFF
  let d := modClk d fun c => if sleep then { c with gateSleep := v } else { c with gateRun := v }
  let inForce := (d.sys.mode == .reef) == sleep && (gateOf d d.sys.mode).isSome
  if inForce then modClk d fun c => { c with gateOvr := satAdd c.gateOvr (countBits (overridden (some v) (neededClocks d))) } else d

/-- The clock of a domain runs: port n's, or with 16 LANE's and with 17 PW's (R470). -/
def clockRuns (d : Dev) (i : Nat) : Bool :=
  let on := if h : i < 16 then (d.port ⟨i, h⟩).on else if i == 16 then d.pwr.laneOn else d.pwr.pwOn
  on && (bit (neededClocks d) i || match gateOf d d.sys.mode with
    | some g => bit g i
    | none => true)

def execStartUpDelayExpiry (r : Ref) (s : State) : Host.Outcome State Fault Refusal := onClocks s (startUpDelayExpiry r)
def execSourceQualified (c : ClkSource) (s : State) : Host.Outcome State Fault Refusal := onClocks s (sourceQualified c)
def execLpllLock (s : State) : Host.Outcome State Fault Refusal := onClocks s lpllLock
def execHpllLock (s : State) : Host.Outcome State Fault Refusal := onClocks s hpllLock
def execReferenceLoss (r : Ref) (s : State) : Host.Outcome State Fault Refusal := onClocks s (referenceLoss r)
def execLpllInputLoss (s : State) : Host.Outcome State Fault Refusal := onClocks s lpllInputLoss
def execHoldoverTimeout (s : State) : Host.Outcome State Fault Refusal := onClocks s holdoverTimeout
def execPllOutputLoss (p : Pll) (s : State) : Host.Outcome State Fault Refusal := onClocks s (pllOutputLoss p)
def execPcieRefLoss (s : State) : Host.Outcome State Fault Refusal := onLive s pcieRefLoss
def execPcieRefReturn (s : State) : Host.Outcome State Fault Refusal := onLive s pcieRefReturn
def execRcDrift (s : State) : Host.Outcome State Fault Refusal := onLive s rcDrift
def execSlewComplete (s : State) : Host.Outcome State Fault Refusal := onClocks s slewComplete
def execClockSwitchForced (s : State) : Host.Outcome State Fault Refusal := onClocks s clockSwitchForced
def execClockResume (s : State) : Host.Outcome State Fault Refusal := onLive s clockResume
def execResume (m : Master) (s : State) : Host.Outcome State Fault Refusal := onLive s (resumeRequest m)
def execRefPri (m : Master) (s : State) : Host.Outcome State Fault Refusal := onLive s (refPri m)
def execAltEnSet (m : Master) (s : State) : Host.Outcome State Fault Refusal := onLive s (altEnSet m)
def execAltEnClear (m : Master) (s : State) : Host.Outcome State Fault Refusal := onLive s (altEnClear m)
def execLpllCandidateChange (m : Master) (v : W32) (s : State) : Host.Outcome State Fault Refusal :=
  onLive s (lpllCandidateChange m v)

end Sys2Proof.Machine
end

