-- ==== Sys2Proof/Machine/Pair.lean ====
section
/-! DEFINITION. The redundant pair: roles, heartbeats, the FOLLOW's time and raster, loss, confirmation and takeover
(R608–R625). -/
namespace Sys2Proof.Machine

def modPair (d : Dev) (f : PairSt → PairSt) : Dev := { d with pair := f d.pair }

def pairOn (d : Dev) : Bool := bit d.pair.cfg 0 && d.pair.st != .off

/-- The modes in which the party-wall lanes carry heartbeats (R611). -/
def pairMode (d : Dev) : Bool :=
  match d.sys.mode with
  | .run | .reef | .safe | .maintain => true
  | _ => false

/-- Heartbeats run: the pair is on, in such a mode, with domain PW powered. -/
def beats (d : Dev) : Bool := pairOn d && pairMode d && d.pwr.pwOn

/-! ### The heartbeat (R611) -/

/-- What one heartbeat says. -/
structure Heartbeat where
  correct : Bool
  role : Nat
  pepoch : BitVec 5
  devid : BitVec 9
  seq : BitVec 12
  /-- DT and FRAC, in 2^-16 tick. -/
  t16 : Nat
  frame : W32
  line : Nat
  rphase : Nat
  rstate : Nat
  upMap : W16
  mode : BitVec 3
  echoSeq : BitVec 12
  echoTurn : Nat
  deriving DecidableEq, Repr

def parseHeartbeat (b : BitVec 256) : Heartbeat :=
  { correct := lineFld b 0 16 == 0x5057 && lineFld b 240 16 == crc16 240 (b.toNat / 65536),
    role := lineFld b 20 2,
    pepoch := BitVec.ofNat 5 (lineFld b 22 5),
    devid := BitVec.ofNat 9 (lineFld b 27 9),
    seq := BitVec.ofNat 12 (lineFld b 36 12),
    t16 := lineFld b 48 80,
    frame := BitVec.ofNat 32 (lineFld b 128 32),
    line := lineFld b 160 16,
    rphase := lineFld b 176 16,
    rstate := lineFld b 192 3,
    upMap := BitVec.ofNat 16 (lineFld b 196 16),
    mode := BitVec.ofNat 3 (lineFld b 212 3),
    echoSeq := BitVec.ofNat 12 (lineFld b 216 12),
    echoTurn := lineFld b 228 12 }

def upMap (d : Dev) : W16 := portsThat d fun p => p.link.st == .up

/-- UP with a partner that answered DUAL = 1 (R623). -/
def dualMap (d : Dev) : W16 := portsThat d fun p => p.link.st == .up && p.link.dual

def heartbeatBits (d : Dev) : BitVec 256 :=
  let r := d.rpos
  let body := lineBits [(16, 0x5057), (4, 1), (2, (roleCode d).toNat), (5, d.pair.pepoch.toNat), (9, (devId d).toNat),
    (12, d.pair.seq.toNat), (64, d.dt.dt.toNat), (16, d.dt.frac.toNat), (32, r.frame.toNat), (16, r.line.toNat),
    (16, r.phase.toNat), (3, d.raster.st.code), (1, b2n d.dt.coarse), (16, (upMap d).toNat), (3, d.sys.mode.code), (1, 0),
    (12, d.pair.echoSeq.toNat), (12, (d.dt.dt - d.pair.echoAt).toNat)]
  BitVec.ofNat 256 (body * 65536 + crc16 240 body)

/-- The four data blocks of a heartbeat: header bit 0, and 64 bits of the message each (R611). -/
def heartbeatBlocks (b : BitVec 256) : List (BitVec 65) :=
  [192, 128, 64, 0].map fun k => BitVec.ofNat 65 (b.toNat / 2 ^ k % 2 ^ 64)

/-- The blocks of a heartbeat on both party-wall lanes. -/
def sendOnPair (d : Dev) (b : BitVec 256) : Dev :=
  pwLanes.foldl (fun d m => if laneTx d m == .fill then sendBlocks d m (heartbeatBlocks b) else d) d

/-- HEARTBEAT_SEND; an interval in which none came counts in HB_MISS (R625). -/
def heartbeatSend (d : Dev) : Dev :=
  if !beats d then d
  else
    let miss := !d.pair.since
    let b := heartbeatBits d
    sendOnPair ((modPair d fun p => { p with
      seq := p.seq + 1, since := false, hbMiss := if miss then satInc p.hbMiss else p.hbMiss,
      sentAt := ((p.seq, d.t16) :: p.sentAt).take 16 }).emit (.heartbeat b)) b

/-! ### Roles (R608, R609, R612, R615–R617) -/

/-- The manager writes SEL0–SEL2 of CLK_LPLL_CFG. -/
def writeSel (d : Dev) (sel : W32) : Dev :=
  modClk d fun c => { c with lpllCfg := (c.lpllCfg &&& 0x03FF_FFFF) ||| sel }

/-- LPLL holds over, if it runs from an input. -/
def holdOver (d : Dev) : Dev :=
  match d.clk.lpll with
  | .locked | .slew => enterHoldover d
  | _ => d

/-- CONFIRM, and LPLL in holdover (R615). -/
def toConfirm (d : Dev) : Dev := holdOver (modPair d fun p => { p with st := .confirm, good := 0 })

/-- LOCKED falls with a change of the source; under SRC 0b01 and 0b10 that is DT_UNLOCKED. -/
def sourceChange (d : Dev) : Dev := dtUnlock (stopSlew d)

/-- Entry to FOLLOW from another role (R609, R612). -/
def toFollow (d : Dev) (pepoch : BitVec 5) : Dev :=
  let d := renewFallbacks d
  let d := modPair d fun p => { p with st := .follow, pepoch := pepoch, good := 0 }
  let d := sourceChange d
  let d := { d with raster := { d.raster with edges := 0, lastEdge := none } }
  let d := setRaster d (if d.raster.set then .acquire else .unlocked)
  reselect (writeSel d 0x7C00_0000)

/-- Time and raster go back to the device's own sources (R617). -/
def ownSources (d : Dev) : Dev :=
  let d := if srcAct d == 0 then stopSlew d else sourceChange d
  if effLock d == 1 && d.raster.set then setRaster d .holdover else refreshFree d

/-- Takeover (R617). Where no PEPOCH has been heard, the rules state none. -/
def takeover (d : Dev) : Dev :=
  let next : BitVec 5 := match d.pair.heard with
    | some e => e + 1
    | none => BitVec.ofNat 5 (Config.freeNat d.free)
  let d := if d.pair.heard.isNone then { d with free := d.free + 1 } else d
  let d := renewFallbacks d
  let d := modPair d fun p => { p with st := .lead, pepoch := next, takeovers := satInc p.takeovers, good := 0 }
  let d := moment d 0x071
  ownSources (reselect (writeSel d 0x3C00_0000))

/-- The conditions of R616 for taking LEAD. -/
def mayTakeLead (d : Dev) : Bool :=
  let dual := allPorts.filter fun n => bit (dualMap d) n.val
  dual.isEmpty || dual.any fun n => (d.port n).link.timingHere

/-- CONFIRM ends, or HOLD is looked at again. -/
def decideLead (d : Dev) : Dev := if mayTakeLead d then takeover d else modPair d fun p => { p with st := .hold }

def confirmExpiry (d : Dev) : Dev := if pairOn d && d.pair.st == .confirm then decideLead d else d

def pairHold (d : Dev) : Dev := if pairOn d && d.pair.st == .hold then decideLead d else d

/-- The role of ROLE_SRC: LEAD or FOLLOW. -/
def roleSrc (d : Dev) : PairRole :=
  match fld d.pair.cfg 2 1 with
  | 1 => .lead
  | 2 => .follow
  | _ => if d.boot.strap.pairrole then .follow else .lead

/-- Link attempts start: after a wake, those of the ports that had their link, which leave REEF2 (R34, R109, R494). -/
def joinPorts (d : Dev) : Dev :=
  if d.pair.joinWake then d.eachPort fun d n => if (d.port n).link.st == .reef2 then exitReef d n true else d
  else d.eachPort fun d n =>
    let asked := (liveOp d fun o => o.isPort n && o.started && match o.cmd with | .portUp _ => true | _ => false).isSome
    if (d.port n).link.st == .isolated && asked then startAttempt d n else startRule d n

/-- JOIN ends. -/
def joinEnd (d : Dev) : Dev :=
  if pairOn d && d.pair.st == .join then
    let d := match d.pair.joinLead with
      | some e => toFollow d e
      | none => if roleSrc d == .follow then toConfirm (toFollow d d.pair.pepoch) else modPair d fun p => { p with st := .lead }
    if d.sys.mode == .run || d.sys.mode == .reef then joinPorts d else d
  else d

/-- PWL_CFG is written (R608, R621). -/
def pairEnable (m : Master) (v : W32) (d : Dev) : Dev :=
  if !reachesAll m then d
  else if !d.pwr.pwOn || d.clk.coreSrc == 2 then accessError d m 0x80000 true
  else
    let was := bit d.pair.cfg 0
    let followed := followRole d
    let join := d.pair.st == .join
    let d := renewFallbacks d
    let d := modPair d fun p => { p with cfg := v &&& 7 }
    if bit v 0 then (if !was && d.sys.mode == .run then startJoin d false else d)
    else if !was then d
    else
      let d := modPair d fun p => { p with st := .off, peerOk := false }
      let d := setLive (setLive d 0x070 false) 0x072 false
      let d := if followed then ownSources (reselect d) else d
      if join && trainMode d then joinPorts d else d

/-! ### Following the LEAD (R613) -/

/-- E is removed by the AUTO rule of R284. -/
def followTime (d : Dev) (e : Int) : Dev :=
  let d := stopSlew d
  if e == 0 then d
  else if (e.natAbs : Int) ≤ stepLim d || (e < 0 && !d.dt.coarse) then startSlew d e none
  else stepTime d e

/-- DT is locked after 16 heartbeats within 8 ns. -/
def countGood (d : Dev) (e : Int) : Dev :=
  let d := modPair d fun p => { p with good := if e.natAbs ≤ 131072 then p.good + 1 else 0 }
  if d.pair.good == 16 then onAvail { d with dt := { d.dt with locked := true } } clearCoarse else d

/-- The LEAD's raster is available. -/
def Heartbeat.rasterAvail (h : Heartbeat) : Bool := h.rstate == 0 || h.rstate == 2 || h.rstate == 3

/-- The LEAD's position, moved on by the link delay, in place of an edge: the start of the LEAD's present frame as this device
times it, once in every frame (R290, R291, R613). -/
def followRaster (d : Dev) (h : Heartbeat) (delay : Int) : Dev :=
  let r := d.raster
  if !r.set || !h.rasterAvail then d
  else
    let into : Int := (h.line * r.lp.toNat + h.rphase * r.lp.toNat / 65536 : Nat)
    let m := d.t16 - delay * 4096 - into
    let early := match r.lastEdge with
      | some x => decide (2 * (m - x) < r.frameLen)
      | none => false
    if early then d
    else
      let f := r.frameStart d.t16 h.frame
      let e := m - f
      let inLine := decide (e.natAbs ≤ r.lp.toNat)
      if inLine then
        onAvail (followEdge d m).1 fun d => countEdge d m true
      else fireLate (countEdge (reanchor d m h.frame) m false)

/-- The link delay d in 2^-4 tick: half of what the round trip to the echo of an own heartbeat takes beyond ECHO_TURN. An echo of
none of the last 16 leaves d as it was measured last (DESIGN CHOICE, assumption 189). -/
def linkDelay (d : Dev) (h : Heartbeat) : Int :=
  match d.pair.sentAt.find? fun x => x.1 == h.echoSeq with
  | some x => (d.t16 - x.2 - (h.echoTurn * 65536 : Nat)) / 8192
  | none => d.pair.delay.toNat

/-- What a FOLLOW does with a LEAD heartbeat. -/
def followBeat (d : Dev) (h : Heartbeat) : Dev :=
  let delay := linkDelay d h
  let e : Int := (h.t16 : Int) + delay * 4096 - d.t16
  let d := modPair d fun p => { p with
    delay := BitVec.ofNat 16 (min delay.toNat 0xFFFF), resid := s16 (e / 4096), pepoch := h.pepoch }
  followRaster (countGood (followTime d e) e) h delay

/-- PEPOCH a is newer than b (R609). -/
def newer (a b : BitVec 5) : Bool := let k := (a - b).toNat; decide (1 ≤ k) && decide (k ≤ 15)

/-- A LEAD keeps the role against another LEAD (R609). Two devices of one DEVID are against R295, and the rules name no
winner. -/
def keepsLead (d : Dev) (h : Heartbeat) : Bool :=
  if newer d.pair.pepoch h.pepoch then true
  else if newer h.pepoch d.pair.pepoch then false
  else if devId d == h.devid then Config.freeNat d.free % 2 == 0
  else decide (devId d < h.devid)

def runOrReef (mode : BitVec 3) : Bool := mode == 3 || mode == 6

/-- A LEAD heartbeat as each role takes it (R608, R609, R613, R615, R616). -/
def leadBeat (d : Dev) (h : Heartbeat) : Dev :=
  let follow (d : Dev) : Dev := if runOrReef h.mode then followBeat d h else toConfirm d
  match d.pair.st with
  | .join => modPair d fun p => { p with joinLead := some h.pepoch }
  | .lead =>
    if keepsLead d h then { d with free := d.free + 1 }
    else follow (toFollow { d with free := d.free + 1 } h.pepoch)
  | .follow => follow d
  | .confirm | .hold =>
    if runOrReef h.mode then followBeat (reselect (modPair d fun p => { p with st := .follow, good := 0 })) h else d
  | .off => d

/-- A heartbeat arrives on a party-wall lane; a wrong SYNC or CRC counts in HB_BAD (R611, R625). -/
def heartbeatReceived (msg : BitVec 256) (d : Dev) : Dev :=
  let h := parseHeartbeat msg
  if !beats d || !(pwLanes.any fun m => (d.lane m).rx == .locked) then d
  else if !h.correct then modPair d fun p => { p with hbBad := satInc p.hbBad }
  else
    let d := setLive d 0x070 false
    let d := modPair d fun p => { p with
      heard := some h.pepoch, peerOk := true, peerMode := h.mode, peerDevid := h.devid, peerUp := h.upMap, since := true }
    let d :=
      if h.role == 1 then leadBeat d h
      else if d.pair.st == .follow then toConfirm d
      else d
    modPair d fun p => { p with echoSeq := h.seq, echoAt := d.dt.dt }

/-- PW_HB_LOSS becomes live: the party-wall candidate is no longer qualified, and a FOLLOW confirms (R612, R615). -/
def followLoss (d : Dev) : Dev :=
  let d := modClk d fun c => { c with pwQual := false }
  if d.pair.st == .follow then toConfirm d
  else if d.clk.lpllIn == some .partyWall then holdOver d
  else d

/-- 32 µs without a correct heartbeat (R615). -/
def heartbeatLoss (d : Dev) : Dev :=
  if !pairOn d || !pairMode d then d
  else followLoss (setLive (modPair d fun p => { p with peerOk := false, good := 0 }) 0x070 true)

/-- What an occurrence of a source calls for beside its level: sparing after a lane fault, and the end of following after PW_HB_LOSS
(R263, R266, R524, R525, R612, R615). -/
def followUp (d : Dev) (src : BitVec 10) : Dev := if src == 0x070 then followLoss d else spareOn d src

/-- Either party-wall lane has not been LOCKED for 1 ms. -/
def pwLaneTimeout (d : Dev) : Dev := if pairOn d && !pwLocked d then setLive d 0x072 true else d

/-! ### PWL registers (R622–R625) -/

def PairRole.num : PairRole → Nat
  | .off => 0 | .join => 1 | .lead => 2 | .follow => 3 | .confirm => 4 | .hold => 5

def pwlStat (d : Dev) : W32 :=
  let p := d.pair
  at_ 29 p.st.num ||| at_ 24 p.pepoch.toNat ||| atB 23 p.peerOk ||| atB 22 (p.st == .follow && d.dt.locked) |||
  atB 21 ((d.lane 18).rx == .locked) ||| atB 20 ((d.lane 19).rx == .locked) ||| at_ 17 p.peerMode.toNat |||
  at_ 8 p.peerDevid.toNat ||| at_ 0 p.takeovers.toNat

def pwlMap (d : Dev) : W32 := at_ 16 d.pair.peerUp.toNat ||| at_ 0 (dualMap d).toNat

def pwlTime (d : Dev) : W32 := at_ 16 d.pair.delay.toNat ||| at_ 0 d.pair.resid.toNat

def pwlCnt (d : Dev) : W32 := at_ 16 d.pair.hbBad.toNat ||| at_ 0 d.pair.hbMiss.toNat

/-! ### The rows -/

def execJoinEnd (s : State) : Host.Outcome State Fault Refusal := onLive s joinEnd
def execHeartbeatSend (s : State) : Host.Outcome State Fault Refusal := onLive s heartbeatSend
def execHeartbeatReceived (msg : BitVec 256) (s : State) : Host.Outcome State Fault Refusal :=
  onLive s (heartbeatReceived msg)
def execHeartbeatLoss (s : State) : Host.Outcome State Fault Refusal := onLive s heartbeatLoss
def execPwLaneTimeout (s : State) : Host.Outcome State Fault Refusal := onLive s pwLaneTimeout
def execConfirmExpiry (s : State) : Host.Outcome State Fault Refusal := onLive s confirmExpiry
def execPairHoldReevaluate (s : State) : Host.Outcome State Fault Refusal := onLive s pairHold
def execPairEnable (m : Master) (v : W32) (s : State) : Host.Outcome State Fault Refusal := onLive s (pairEnable m v)

end Sys2Proof.Machine
end

