-- ==== Sys2Proof/Machine/Avs.lean ====
section
/-! DEFINITION. The core voltage and the operating points (R483–R486, R509–R511). -/
namespace Sys2Proof.Machine

/-- VSET is planned anew: a raise above the present voltage at F0 is applied at once, a fall lowers the voltage unless the
host controls it (R484, R485). -/
def setVset (d : Dev) (v : W8) : Dev :=
  let a := d.avs
  let d := { d with avs := { a with vset := v } }
  if a.freq != 0 then d
  else if a.volt < v || (v < a.volt && v < a.vset && !a.cfgHost) then startPoint d 0 v
  else d

def rejectAvs (d : Dev) (e : BitVec 3) : Dev := { d with avs := { d.avs with err := e } }

/-- A voltage request (R485). -/
def avsVoltage (m : Master) (v : W8) (d : Dev) : Dev :=
  let a := d.avs
  if !reachesAll m then d
  else if d.clk.coreSrc == 2 then accessError d m 0xC024 true
  else if !a.cfgHost then rejectAvs d 3
  else if a.busy then rejectAvs d 5
  else if v < 136 || 172 < v then rejectAvs d 2
  else if v.toNat < vMin a a.freq then rejectAvs d 1
  else startPoint (rejectAvs d 0) a.freq v

/-- A frequency request (R485); point 3 is reserved. -/
def avsFrequency (m : Master) (f : BitVec 2) (d : Dev) : Dev :=
  let a := d.avs
  if !reachesAll m then d
  else if d.clk.coreSrc == 2 then accessError d m 0xC024 true
  else if f == 3 then d
  else if !a.cfgHost then rejectAvs d 3
  else if a.busy then rejectAvs d 5
  else if a.volt.toNat < vMin a f then rejectAvs d 1
  else { d with avs := { a with freq := f, err := 0 } }

/-- The regulator reports the target reached. -/
def avsReached (d : Dev) : Dev :=
  match d.avs.target with
  | some (_, f) => { d with avs := { d.avs with freq := f, busy := false, target := none } }
  | none => d

/-- 200 µs without it: AVS_TIMEOUT, and the frequency stays at the lower point (R486). -/
def avsTimedOut (d : Dev) : Dev :=
  match d.avs.target with
  | some _ => moment { d with avs := { d.avs with busy := false, target := none, err := 4 } } 0x020
  | none => d

/-- The voltage read back every 1 ms: more than 15 mV from the set point is AVS_MISMATCH. -/
def avsRead (millivolt : Nat) (d : Dev) : Dev :=
  setLive d 0x021 (decide (15 < ((millivolt : Int) - (d.avs.volt.toNat * 5 : Nat)).natAbs))

/-- PWR_AVS_STAT (R511). -/
def avsStat (a : AvsSt) : W32 := atB 31 a.busy ||| at_ 28 a.err.toNat ||| at_ 8 a.freq.toNat ||| at_ 0 a.volt.toNat

def execAvsVoltageRequest (m : Master) (v : W8) (s : State) : Host.Outcome State Fault Refusal := onLive s (avsVoltage m v)

def execAvsFrequencyRequest (m : Master) (f : BitVec 2) (s : State) : Host.Outcome State Fault Refusal :=
  onLive s (avsFrequency m f)

def execAvsTargetReached (s : State) : Host.Outcome State Fault Refusal := onLive s avsReached

def execAvsTimeout (s : State) : Host.Outcome State Fault Refusal := onLive s avsTimedOut

def execAvsReadback (millivolt : Nat) (s : State) : Host.Outcome State Fault Refusal := onLive s (avsRead millivolt)

end Sys2Proof.Machine
end

