-- ==== Sys2Proof/Machine/Diag.lean ====
section
/-! DEFINITION. Cable diagnostics, ageing, the margin planner and the periodic Attic record (R358, R571–R592). -/
namespace Sys2Proof.Machine

/-! ### Reflectograms (R574, R575) -/

/-- VP in 0.01 ns/m (R596). -/
def cableVp (c : PortCfg) : Nat :=
  let v := fld c.diagCfg 29 20
  if 350 ≤ v ∧ v ≤ 700 then v else 480

/-- The distance of a bin in cm: b × 1.333 ns over twice the delay, rounded (R574, R579). -/
def binCm (c : PortCfg) (b : Nat) : Nat := (b * 40000 / (3 * cableVp c) + 1) / 2

def dbOr (v dflt : Nat) : Nat := if v == 0 then dflt else v
def chgDb (c : PortCfg) : Nat := dbOr (fld c.diagCfg 7 4) 3
def degDb (c : PortCfg) : Nat := dbOr (fld c.diagCfg 3 0) 6
def ilDeg (c : PortCfg) : Nat := dbOr (fld c.diagCfg 14 10) 15

/-- The return loss of a power Σc², for coefficients in units of 2^-15, in 1/16 dB; below the floor of 80 dB it is 0xFFFF (R574).
0 dB is a coefficient of 1, and the nearest 1/16 dB is shown (DESIGN CHOICE, assumption 185). -/
def returnLoss (power : Nat) : W16 :=
  if 10 ^ 8 * power < 2 ^ 30 then 0xFFFF
  else BitVec.ofNat 16
    (((List.range 11).map fun i => 10 - i).foldl
      (fun k i => if logTest 160 (2 ^ 30) power (k + 2 ^ i : Nat) then k + 2 ^ i else k) 0)

/-- The passive reflectogram (R574): in bin b the echo coefficients of the delays from bin b to the next, which in a Gletik mode are
the sampling phases of one symbol. A standard mode's coefficients go into the bins of their delays (DESIGN CHOICE, assumption
185). -/
def reflectogram (p : Port) : List W16 :=
  let k := ecTaps p.link.mode
  (List.range 480).map fun b =>
    returnLoss (sumSq ((p.rx.live.ec.drop (b * k / 480)).take ((b + 1) * k / 480 - b * k / 480)))

/-- A reflectogram becomes the baseline, after which the shield baseline is taken (R575, R577). -/
def takeBaseline (p : Port) (bins : List W16) : Port :=
  { p with diag := { p.diag with baseline := some bins, shieldFirst := some [] } }

/-- Once per second while UP; the first one becomes the baseline. -/
def reflectogramUpdate (n : Fin 16) (d : Dev) : Dev :=
  let p := d.port n
  if p.link.st == .up && p.pc.up then
    let bins := reflectogram p
    d.modPort n fun p =>
      let p := { p with diag := { p.diag with reflect := bins } }
      if p.diag.baseline.isSome then p else takeBaseline p bins
  else d

def binAt (l : List W16) (b : Nat) : Nat := (l.getD b 0xFFFF).toNat

/-- A bin at 40 dB or less in either reflectogram. -/
def peakCounts (now was : List W16) (b : Nat) : Bool := decide (binAt now b ≤ 640) || decide (binAt was b ≤ 640)

/-- A local minimum of return loss: a peak of the reflection (DESIGN CHOICE, assumption 185). -/
def isPeak (l : List W16) (b : Nat) : Bool :=
  decide (binAt l b < 0xFFFF) && (b == 0 || decide (binAt l b ≤ binAt l (b - 1))) &&
  (b == 479 || decide (binAt l b < binAt l (b + 1)))

/-- The peaks of two reflectograms that a comparison considers (R575, R579). -/
def peakBins (now was : List W16) : List Nat :=
  (List.range 480).filter fun b => (isPeak now b || isPeak was b) && peakCounts now was b

/-- One REFLECT record (R591). -/
def reflectRecord (d : Dev) (n : Fin 16) (now was : List W16) (b : Nat) : Dev :=
  let d := attic d n 0x11 (leBytes 2 (binCm (d.port n).cfg b) ++ leBytes 2 (binAt now b) ++ leBytes 2 (binAt was b) ++ leBytes 2 b)
  d.modPort n fun p => { p with diag := { p.diag with peaksChg := satInc p.diag.peaksChg } }

/-- The hourly comparison of every peak with the baseline. -/
def reflectHourly (n : Fin 16) (d : Dev) : Dev :=
  let p := d.port n
  match p.diag.baseline with
  | some was =>
    let now := p.diag.reflect
    if p.link.st == .up && p.pc.up then
      (peakBins now was).foldl (fun d b =>
        if chgDb p.cfg * 16 ≤ ((binAt now b : Int) - binAt was b).natAbs then reflectRecord d n now was b else d) d
    else d
  | none => d

/-! ### The shield (R577) -/

def shRise (c : PortCfg) : Int :=
  let v := fld c.diagCfg 19 15
  ((if 4 ≤ v then v else 10 : Nat) * 10 : Nat)

def shieldRecord (d : Dev) (n : Fin 16) (rise : Int) (on : Bool) : Dev :=
  attic (d.modPort n fun p => { p with diag := { p.diag with shield := on } }) n 0x12
    (leBytes 2 (s16 rise).toNat ++ [BitVec.ofNat 8 (b2n on)])

def insertInt (x : Int) : List Int → List Int
  | [] => [x]
  | y :: l => if x ≤ y then x :: y :: l else y :: insertInt x l

/-- The median of 600 measurements, the lower of the middle two (DESIGN CHOICE, assumption 186). -/
def medianOf (l : List Int) : Int := (l.foldl (fun a x => insertInt x a) []).getD (l.length / 2 - 1) 0

/-- One measurement goes into the last 10 min, and into the first 10 min of the baseline, whose median becomes the shield
baseline (R577); 10 min are 600 measurements. -/
def noteNoise (g : DiagSt) (power : Int) : DiagSt :=
  let g := { g with shieldWin := (power :: g.shieldWin).take 600 }
  match g.shieldFirst with
  | some l =>
    if l.length + 1 < 600 then { g with shieldFirst := some (power :: l) }
    else { g with shieldFirst := none, shieldRef := some (medianOf (power :: l)) }
  | none => g

def shieldMeasure (n : Fin 16) (power : Int) (d : Dev) : Dev :=
  let p := d.port n
  if p.link.st != .up || bit p.cfg.diagCfg 31 || !bit p.cfg.diagCfg 30 || !p.pc.up then d
  else
    let d := d.modPort n fun p => { p with diag := noteNoise p.diag power }
    let g := (d.port n).diag
    match g.shieldRef with
    | some r =>
      let total := g.shieldWin.foldl (· + ·) 0 - 600 * r
      if g.shieldWin.length < 600 then d
      else if !g.shield && decide (600 * shRise p.cfg ≤ total) then shieldRecord d n (total / 600) true
      else if g.shield && decide (total ≤ 600 * (shRise p.cfg - 30)) then shieldRecord d n (total / 600) false
      else d
    | none => d

/-! ### Reflectometry (R571, R572) -/

def insertTdr (f : TdrFinding) : List TdrFinding → List TdrFinding
  | [] => [f]
  | x :: xs => if f.cm < x.cm then f :: x :: xs else x :: insertTdr f xs

/-- The distance of a reflection in cm: its delay less the port's own, over twice VP, where VP is in units of 10 ps/m (R570). -/
def tdrCm (n : Fin 16) (c : PortCfg) (delay : Nat) : Nat := ((delay - Config.portDelay n.val) * 10 / cableVp c + 1) / 2

/-- A finding of a reflection (R346, R572): beyond 0.8 of the step an open, which reflects it with its own sign, or a short; else an
impedance step of at least 8 ohm. The first 0.5 m is a dead zone. -/
def findingOf (n : Fin 16) (c : PortCfg) (e : TdrEcho) : Option TdrFinding :=
  let cm := tdrCm n c e.delay
  let type : BitVec 4 := if 8 * 1024 < 10 * e.level then 1 else if 10 * e.level < -(8 * 1024) then 2 else 3
  if cm < 50 || (type == 3 && decide (e.step.natAbs < 80)) then none
  else some ⟨type, BitVec.ofNat 16 (min cm 65535), s16 e.step, s16 (if e.level = 0 then -32768 else log100 (sq e.level) (1024 ^ 2))⟩

def largestStep : List TdrFinding → Option TdrFinding
  | [] => none
  | x :: xs => some (xs.foldl (fun a y => if a.step.toInt.natAbs < y.step.toInt.natAbs then y else a) x)

/-- The finding a DIAG_TDR returns: the nearest open or short, or the largest step. -/
def chosenTdr (l : List TdrFinding) : Option TdrFinding :=
  match l.find? fun f => f.type == 1 || f.type == 2 || f.type == 4 with
  | some f => some f
  | none => largestStep l

def tdrComplete (n : Fin 16) (echoes : List TdrEcho) (energy trained : Nat) (d : Dev) : Dev :=
  let op := liveOp d fun o => o.isPort n && o.started && match o.cmd with | .diagTdr _ => true | _ => false
  match op with
  | some o =>
    if (d.port n).link.st != .isolated || !(d.port n).pc.up then d
    else
      let l := if trained < energy * 100 then [⟨4, 0, 0, 0⟩]
        else ((echoes.filterMap (findingOf n (d.port n).cfg)).foldl (fun acc f => insertTdr f acc) []).take 8
      let stamp := d.stamp
      let d := d.modPort n fun p => { p with diag := { p.diag with tdr := l, tdrAt := stamp } }
      let f := (chosenTdr l).getD ⟨0, 0, 0, 0⟩
      let d := attic d n 0x17 ([BitVec.ofNat 8 f.type.toNat, 0] ++ leBytes 2 f.cm.toNat ++ leBytes 2 f.step.toNat)
      endOp d o.handle stSuccess 0 (at_ 28 f.type.toNat ||| at_ 0 f.cm.toNat) (f.step.signExtend 32)
  | none => d

/-! ### Signatures (R578, R579) -/

/-- The 4 KiB of a signature. -/
def signature (d : Dev) (n : Fin 16) (bins : List W16) : List W8 :=
  let p := d.port n
  let shield : W16 := if bit p.cfg.diagCfg 31 then 0xFFFF else s16 (p.diag.shieldRef.getD (-1))
  let body : List W8 := [0x5A, 0x56, 0x53, 0x47, 1, 0, BitVec.ofNat 8 n.val, BitVec.ofNat 8 p.link.mode.code] ++
    leBytes 2 (fld p.cfg.diagCfg 31 16) ++ leBytes 2 p.diag.il.toNat ++ leBytes 2 shield.toNat ++ [p.diag.tempNow, 0] ++
    leBytes 8 d.dt.dt.toNat ++ leBytes 8 ((devId d).toNat + (Config.dieId.toNat % 2 ^ 32) * 65536) ++
    List.replicate 32 0 ++ bins.flatMap fun b => leBytes 2 b.toNat
  let body := padTo 4092 body
  body ++ leBytes 4 (crc32c body)

def sigRecord (d : Dev) (n : Fin 16) (op verdict : Nat) (r0 r1 : W32) : Dev :=
  attic d n 0x16 ([BitVec.ofNat 8 op, BitVec.ofNat 8 verdict] ++ leBytes 2 (fld r0 15 0) ++ leBytes 2 (fld r1 15 0) ++
    leBytes 2 (fld r1 31 16))

/-- A take: the buffer is written, and its reflectogram is the new baseline. -/
def takeSignature (d : Dev) (n : Fin 16) (h : W16) (f : Fn) (addr : W64) : Dev :=
  let bins := reflectogram (d.port n)
  let d := d.emit (.memWrite f addr (signature d n bins))
  let d := d.modPort n fun p => takeBaseline p bins
  endOp (sigRecord d n 0 0 0 0) h stSuccess

/-- The change of a peak in 0.1 dB; positive is a stronger reflection. -/
def peakChange (now was : List W16) (b : Nat) : Int := (((binAt was b : Int) - binAt now b) * 10).tdiv 16

/-- A comparison with the bytes of a signature (R579). Where one of the two has no estimate of the insertion loss, the rules state no
change of it: it is a free value (DESIGN CHOICE, assumption 94). -/
def compareSignature (d : Dev) (n : Fin 16) (h : W16) (bytes : List W8) : Dev :=
  let p := d.port n
  let at2 (k : Nat) : Nat := ofLe ((bytes.drop k).take 2)
  let good := bytes.take 6 == [0x5A, 0x56, 0x53, 0x47, 1, 0] && bytes.getD 6 0xFF == BitVec.ofNat 8 n.val &&
    ofLe ((bytes.drop 4092).take 4) == crc32c (bytes.take 4092)
  if !good then endOp d h stVerify
  else
    let was : List W16 := (List.range 480).map fun i => BitVec.ofNat 16 (at2 (64 + 2 * i))
    let now := reflectogram p
    let big := (peakBins now was).foldl (fun (a : Nat × Int) b =>
      let c := peakChange now was b
      if a.2.natAbs < c.natAbs then (b, c) else a) (0, 0)
    let differs (db : Nat) : Bool := (peakBins now was).any fun b =>
      decide (db * 16 ≤ ((binAt now b : Int) - binAt was b).natAbs)
    let sameMode := (bytes.getD 7 0).toNat == p.link.mode.code
    let noIl := p.diag.il == 0xFFF || at2 10 == 0xFFF
    let ilChange : Int := if noIl then (s16 (Config.freeNat d.free)).toInt else (p.diag.il.toNat : Int) - at2 10
    let d := if noIl then { d with free := d.free + 1 } else d
    let degraded := differs (degDb p.cfg) || (sameMode && decide (ilDeg p.cfg ≤ ilChange.natAbs))
    let verdict := if at2 8 != fld p.cfg.diagCfg 31 16 then 3 else if degraded then 2 else if differs (chgDb p.cfg) then 1 else 0
    let r0 := at_ 28 verdict ||| at_ 0 (if big.2 == 0 then 0 else binCm p.cfg big.1)
    let r1 := at_ 16 (if sameMode then (s16 ilChange).toNat else 0x8000) ||| at_ 0 (s16 big.2).toNat
    let d := d.modPort n fun p => { p with diag := { p.diag with verdict := BitVec.ofNat 2 verdict } }
    endOp (sigRecord d n 1 verdict r0 r1) h stSuccess 0 r0 r1

/-! ### Ageing (R586, R587) -/

/-- δ of monitor i in 0.01 %, from the cycles of its stressed and its reference oscillator (R586); rounded down (DESIGN CHOICE,
assumption 187). -/
def deltaOf (i stressed reference : Nat) : Int :=
  let x : Int := (reference * Config.ageRatio i : Nat)
  10000 * (x - (stressed * 65536 : Nat)) / x

/-- δ_max; a negative one counts as 0 (DESIGN CHOICE, assumption 187). -/
def deltaMax (a : AgeSt) : Nat := (a.delta.foldl max 0).toNat

def ageStep (a : AgeSt) : Nat := let s := fld a.cfg 15 8; 5 * (if 2 ≤ s ∧ s ≤ 40 then s else 8)

/-- VSET as planned from δ_max, capped at 0.86 V. -/
def plannedVset (a : AgeSt) : Nat := min 172 (partVset.toNat + (deltaMax a + ageStep a - 1) / ageStep a)

/-- The monitors are measured, and VSET planned anew; the measurement waits for F0 and for a privileged test to end. -/
def ageMeasurement (cycles : List (Nat × Nat)) (d : Dev) : Dev :=
  if d.avs.freq != 0 || d.bist.privRun != 0 then d
  else
    let delta := (List.zip (List.range 24) cycles).map fun x => deltaOf x.1 x.2.1 x.2.2
    let d := { d with age := { d.age with delta := delta } }
    if !bit d.age.cfg 0 then d
    else
      let plan := plannedVset d.age
      let now := d.avs.vset.toNat
      let lower := if plan < now then d.age.lower + 1 else 0
      let d := { d with age := { d.age with ceiling := plan == 172, lower := if lower == 7 then 0 else lower } }
      if now < plan then setVset d (BitVec.ofNat 8 plan)
      else if lower == 7 then setVset d (d.avs.vset - 1)
      else d

/-- AGE_STAT (R600). -/
def ageStat (d : Dev) : W32 :=
  let a := d.age
  let m := deltaMax a
  let top := a.delta.foldl max (a.delta.headD 0)
  let worst := ((List.range 24).find? fun i => a.delta.getD i 0 == top).getD 0
  atB 31 a.ceiling ||| at_ 25 worst ||| at_ 16 ((d.avs.vset - partVset).toNat) ||| at_ 0 (min m 65535)

/-! ### The planner (R588–R590) -/

/-- The sums of a fit of the mean margins over time and temperature, each about its mean and times the number of points (R589); time
counts from now. -/
structure FitSums where
  n : Int
  t : Int
  c : Int
  m : Int
  tt : Int
  tc : Int
  cc : Int
  tm : Int
  cm : Int
  mm : Int
  deriving DecidableEq, Repr

def fitSums (now : W64) (l : List HourPt) : FitSums :=
  let n : Int := l.length
  let t (x : HourPt) : Int := -((now - x.time).toNat : Int)
  let sum (f : HourPt → Int) : Int := l.foldl (fun a x => a + f x) 0
  let about (f g : HourPt → Int) : Int := n * sum (fun x => f x * g x) - sum f * sum g
  { n := n, t := sum t, c := sum (·.temp), m := sum (·.mean), tt := about t t, tc := about t (·.temp), cc := about (·.temp) (·.temp),
    tm := about t (·.mean), cm := about (·.temp) (·.mean), mm := about (·.mean) (·.mean) }

/-- b and c over a common denominator, by least squares; and n - 3, the residue over that denominator, and the weight of b in it.
Where the points do not fix both, the temperature is left out (DESIGN CHOICE, assumption 188). -/
structure Fit where
  b : Int
  c : Int
  den : Int
  dof : Int
  residue : Int
  weight : Int
  deriving DecidableEq, Repr

def fitOf (s : FitSums) : Fit :=
  let det := s.tt * s.cc - s.tc * s.tc
  if det ≠ 0 then
    let b := s.tm * s.cc - s.cm * s.tc
    let c := s.cm * s.tt - s.tm * s.tc
    { b := b, c := c, den := det, dof := s.n - 3, residue := s.mm * det - b * s.tm - c * s.cm, weight := s.cc }
  else
    { b := s.tm, c := 0, den := if s.tt = 0 then 1 else s.tt, dof := s.n - 2, residue := s.mm * s.tt - s.tm * s.tm, weight := 1 }

/-- The 90 % upper confidence bound of b is below 0. -/
def Fit.falling (f : Fit) : Bool :=
  let k : Int := Config.confidence f.dof.toNat
  decide (f.b < 0) && decide (0 < f.dof) && decide (k * k * f.residue * f.weight < f.b * f.b * f.dof * 2 ^ 32)

/-- TTC in units of 10 s (R589): margins in 0.1 dB, so that 10 is the crossing; rounded down (DESIGN CHOICE, assumption 188). -/
def ttcOf (s : FitSums) (f : Fit) (hot : Int) : Seq :=
  let left := s.m * f.den - f.b * s.t - f.c * s.c + s.n * f.c * hot - 10 * s.n * f.den
  if left ≤ 0 then 0
  else if f.falling then BitVec.ofNat 24 (min 0xFF_FFFF (left / (s.n * -f.b) / 2500000000).toNat)
  else 0xFF_FFFF

/-- FIT_DAYS (R597). -/
def fitDays (c : PortCfg) : Nat :=
  let x := fld c.planCfg 23 16
  if 1 ≤ x ∧ x ≤ 14 then x else 14

/-- Hours in ticks. -/
def hours (k : Nat) : Nat := k * 900000000000

/-- The point of the hour that ends: none where the port was UP for less than half of it (R588), and none without a window that was
HIGH (DESIGN CHOICE, assumption 188). -/
def hourPoint (now : W64) (g : DiagSt) : Option HourPt :=
  let s := g.plan
  let up := s.upTicks + (match s.upSince with | some a => (now - a).toNat | none => 0)
  if 2 * up < hours 1 || s.count == 0 then none
  else some {
    time := now, mean := nearest s.sum s.count,
    temp := if s.tempCount = 0 then g.tempNow.toInt else nearest s.tempSum s.tempCount }

/-- A new hour begins. -/
def nextHour (now : W64) (s : PlanSt) : PlanSt :=
  { s with sum := 0, count := 0, low := 0, tempSum := 0, tempCount := 0, upTicks := 0, upSince := s.upSince.map fun _ => now }

/-- The points of the last FIT_DAYS are fitted, and the forecast follows (R589). -/
def refit (now : W64) (c : PortCfg) (g : DiagSt) : DiagSt :=
  let l := g.plan.points.filter fun x => decide ((now - x.time).toNat ≤ hours (24 * fitDays c))
  let s := fitSums now l
  let f := fitOf s
  let span := match l.head?, l.getLast? with
    | some x, some y => (x.time - y.time).toNat
    | _, _ => 0
  let hot := l.foldl (fun a x => max a x.temp) (match l with | x :: _ => x.temp | [] => 0)
  { g with
    fcastValid := decide (24 ≤ l.length) && decide (hours 12 ≤ span), fcastFalling := f.falling,
    ttc := if l.isEmpty then 0xFF_FFFF else ttcOf s f hot,
    plan := { g.plan with points := l, ttcAt := now } }

/-- The highest temperature in the fit. -/
def hotOf (g : DiagSt) : Int := g.plan.points.foldl (fun a x => max a x.temp) (match g.plan.points with | x :: _ => x.temp | [] => 0)

def forecastRecord (d : Dev) (n : Fin 16) (x : HourPt) (low : Int) (losses : W16) : Dev :=
  let g := (d.port n).diag
  attic d n 0x13 (leBytes 2 (s16 x.mean).toNat ++ leBytes 2 (s16 low).toNat ++ [BitVec.ofInt 8 x.temp, BitVec.ofInt 8 (hotOf g)] ++
    leBytes 3 g.ttc.toNat ++ leBytes 2 losses.toNat ++ [BitVec.ofNat 8 (b2n g.fcastValid)])

/-- The answer time L in ticks (R190). -/
def answerTime : LineMode → Option Nat
  | .gl25 => some 4250
  | .gl12 => some 4750
  | .gl6 => some 5875
  | _ => none

/-- W_p in units of 4 µs, from the longest burst (R590). -/
def planWindow (l longest : Nat) : Nat := max 4 (min 32 ((16 * longest + 15 * (l + 2000) + 14999) / 15000))

/-- The smallest RESERVE for a spacing and the burst before it, in units of 0.5 % (R590). -/
def planReserve (l spacing before : Nat) : Nat :=
  if spacing ≤ l then 40 else min 40 ((3200 * before + 15 * (spacing - l) - 1) / (15 * (spacing - l)))

/-- The shortest spacing between two bursts, with D of the earlier one; the newest of equal ones. -/
def closest (l : List PlanBurst) : Option (Nat × Nat) :=
  (l.filterMap (·.gap)).foldl (fun a x => match a with
    | some y => if x.1 < y.1 then some x else some y
    | none => some x) none

/-- The window and the reserve that the bursts of the last 7 days call for; what they do not fix stays as configured (DESIGN CHOICE,
assumption 188). A standard mode has neither. -/
def proposal (p : Port) : Option (Nat × Nat) :=
  (answerTime p.link.mode).map fun l =>
    let b := p.diag.plan.bursts
    (if b.isEmpty then cfgW p.cfg else planWindow l (b.foldl (fun a x => max a x.len) 0),
     match closest b with
     | some x => planReserve l x.1 x.2
     | none => cfgReserve p.cfg)

/-- A proposal of W and RESERVE that differs enough from the configured ones (R590). -/
def proposes (c : PortCfg) (w r : Nat) : Bool := decide (cfgW c < w) || decide (w + 2 ≤ cfgW c) || r != cfgReserve c

/-- WINDOW_PROPOSAL, at most once per 24 h (R590). -/
def propose (d : Dev) (n : Fin 16) : Dev :=
  let p := d.port n
  let day := match p.diag.plan.proposedAt with
    | some t => decide (hours 24 ≤ (d.dt.dt - t).toNat)
    | none => true
  match proposal p with
  | some (w, r) =>
    if bit p.cfg.planCfg 30 && day && proposes p.cfg w r then
      portEvent (d.modPort n fun p => { p with diag := { p.diag with plan := { p.diag.plan with proposedAt := some d.dt.dt } } }) n
        0x0012 [BitVec.ofNat 8 w, BitVec.ofNat 8 r]
    else d
  | none => d

/-- A new amplitude offset starts a run, with its record. -/
def replanAmp (d : Dev) (n : Fin 16) (new : Int) (losses : W16) : Dev :=
  let old := (d.port n).diag.txTarget
  let d := d.modPort n fun p => { p with diag := { p.diag with txTarget := BitVec.ofInt 8 new, lossHours := 0, quietHours := 0 } }
  startRun (attic d n 0x15 ([old, BitVec.ofInt 8 new] ++ leBytes 2 losses.toNat)) n calByAmp

/-- The amplitude rule of R590, in steps of 0.25 dB. -/
def amplitude (d : Dev) (n : Fin 16) (losses : W16) : Dev :=
  let c := (d.port n).cfg
  let lim := dbOr (fld c.planCfg 7 0) 4
  let top : Int := let m := fld c.planCfg 15 12; ((if m ≤ 8 then m else 4) * 5 : Nat)
  let d := d.modPort n fun p => { p with diag := { p.diag with
    lossHours := if lim ≤ losses.toNat then p.diag.lossHours + 1 else 0,
    quietHours := if losses == 0 then p.diag.quietHours + 1 else 0 } }
  let g := (d.port n).diag
  let now := g.txTarget.toInt
  if 2 ≤ g.lossHours ∧ now + 5 ≤ top then replanAmp d n (now + 5) losses
  else if 168 ≤ g.quietHours ∧ now ≠ 0 then replanAmp d n (if 0 < now then now - 5 else now + 5) losses
  else d

/-- The planner forms the hour's point, fits anew and records it. -/
def planPoint (d : Dev) (n : Fin 16) (losses : W16) : Dev :=
  let now := d.dt.dt
  let pt := hourPoint now (d.port n).diag
  let low := (d.port n).diag.plan.low
  let d := d.modPort n fun p => { p with diag := refit now p.cfg { p.diag with plan := { nextHour now p.diag.plan with
    points := (match pt with | some x => [x] | none => []) ++ p.diag.plan.points,
    bursts := p.diag.plan.bursts.filter fun b => decide ((now - b.time).toNat ≤ hours 168) } } }
  match pt with
  | some x => forecastRecord d n x low losses
  | none => d

/-- Each hour. -/
def plannerHourly (n : Fin 16) (d : Dev) : Dev :=
  let p := d.port n
  let losses : W16 := BitVec.ofNat 16 (min p.diag.lossNow 65535)
  let d := d.modPort n fun p => { p with diag := { p.diag with upLoss := losses, lossNow := 0 } }
  if !bit p.cfg.planCfg 31 || !p.pc.up then d.modPort n fun p => { p with diag := { p.diag with plan := nextHour d.dt.dt p.diag.plan } }
  else
    let d := propose (planPoint d n losses) n
    let d := if bit p.cfg.planCfg 29 then amplitude d n losses else d
    if forecastDue d.dt.dt (d.port n) then planDownshift d n else d

/-! ### The periodic record (R358, R359) -/

def satDiff (new old : W64) : Nat := min (new - old).toNat 65535

def atticPeriodic (n : Fin 16) (d : Dev) : Dev :=
  let p := d.port n
  if p.link.st != .up || !p.attic.on then d
  else
    let u := p.rtx.counters[3]
    let m := p.rtx.counters[7]
    let written := p.pc.up && !p.attic.dmaHalt
    let d := attic d n 0x01 (leBytes 2 p.link.marginCur.toNat ++ leBytes 2 (pending p.rtx) ++
      leBytes 2 (satDiff u p.attic.lastUncorr) ++ leBytes 2 (satDiff m p.attic.lastMissing) ++
      leBytes 2 p.shr.gain.toNat ++ [p.diag.tempNow, BitVec.ofNat 8 (p.link.st.code * 32 + p.link.mode.code)])
    if written then d.modPort n fun p => { p with attic := { p.attic with lastUncorr := u, lastMissing := m } } else d

/-! ### The rows -/

def execReflectogramUpdate (n : Fin 16) (s : State) : Host.Outcome State Fault Refusal := onLive s (reflectogramUpdate n)

def execReflectCompareHourly (n : Fin 16) (s : State) : Host.Outcome State Fault Refusal := onLive s (reflectHourly n)

def execShieldMeasure (n : Fin 16) (power : Int) (s : State) : Host.Outcome State Fault Refusal := onLive s (shieldMeasure n power)

def execTdrComplete (n : Fin 16) (echoes : List TdrEcho) (energy trained : Nat) (s : State) : Host.Outcome State Fault Refusal :=
  onLive s (tdrComplete n echoes energy trained)

def execAgeMeasurement (cycles : List (Nat × Nat)) (s : State) : Host.Outcome State Fault Refusal :=
  onLiveIf (cycles.length == 24) s (ageMeasurement cycles)

def execPlannerHourly (n : Fin 16) (s : State) : Host.Outcome State Fault Refusal := onLive s (plannerHourly n)

def execAtticPeriodic (n : Fin 16) (s : State) : Host.Outcome State Fault Refusal := onLive s (atticPeriodic n)

end Sys2Proof.Machine
end

