-- ==== Sys2Proof/Machine/Rings.lean ====
section
/-! DEFINITION. The rings of the two functions: doorbells, enable and disable, the stopping of a function, the coalescing
timer and the unmasking of a vector (R326–R343, R362–R379). -/
namespace Sys2Proof.Machine

def RingKind.num : RingKind → Nat
  | .sq => 0
  | .cq => 1
  | .ev => 2

/-- The RING_ERROR event (R356). -/
def ringError (d : Dev) (kind k cause : Nat) (addr : W64) : Dev :=
  eventBoth d 0x0030 0 ([BitVec.ofNat 8 kind, BitVec.ofNat 8 k, BitVec.ofNat 8 cause, 0, 0, 0, 0, 0] ++ leBytes 8 addr.toNat)

def modSq (d : Dev) (f : Fn) (k : Fin 16) (g : SqRing → SqRing) : Dev :=
  let x := d.fn f
  d.setFn f { x with sq := x.sq.set k.val (g x.sq[k.val]) }

def modCq (d : Dev) (f : Fn) (k : Fin 16) (g : CqRing → CqRing) : Dev :=
  let x := d.fn f
  d.setFn f { x with cq := x.cq.set k.val (g x.cq[k.val]) }

def modEv (d : Dev) (f : Fn) (g : EvRing → EvRing) : Dev := d.modFn f fun x => { x with ev := g x.ev }

/-- A ring stops on an error, with its cause, and RING_ERROR is posted (R335, R363). -/
def stopSq (d : Dev) (f : Fn) (k : Fin 16) (cause : Nat) (addr : W64) : Dev :=
  ringError (modSq d f k fun r => { r with st := .error, cause := BitVec.ofNat 4 cause }) 0 k.val cause addr

def stopCq (d : Dev) (f : Fn) (k : Fin 16) (cause : Nat) : Dev :=
  ringError (modCq d f k fun r => { r with st := .error, cause := BitVec.ofNat 4 cause }) 1 k.val cause 0

def stopEv (d : Dev) (f : Fn) (cause : Nat) : Dev :=
  ringError (modEv d f fun r => { r with st := .error, cause := BitVec.ofNat 4 cause }) 2 0 cause 0

/-- A consumer index moves past the device's producer index (R335). -/
def pastProd (cfg : W32) (prod cons v : W16) : Bool :=
  let n := ringDepth cfg
  decide ((prod.toNat + n - cons.toNat) % n < (v.toNat + n - cons.toNat) % n)

/-- An SQ doorbell takes effect (R331, R335); while the manager restarts it is held (R27). A bad one reads nothing, and its RING_ERROR
event gives 0 as the failing address (DESIGN CHOICE, assumption 204). -/
def sqDoorbell (f : Fn) (k : Fin 16) (v : W16) (d : Dev) : Dev :=
  let r := (d.fn f).sq[k.val]
  if r.st != .run then d
  else if !d.sys.mgrUp then modSq d f k fun r => { r with held := some v }
  else if ringDepth r.cfg ≤ v.toNat then stopSq d f k 1 0
  else modSq d f k fun r => { r with prod := v }

def cqDoorbell (f : Fn) (k : Fin 16) (v : W16) (d : Dev) : Dev :=
  let r := (d.fn f).cq[k.val]
  if r.st != .run then d
  else if !d.sys.mgrUp then modCq d f k fun r => { r with held := some v }
  else if ringDepth r.cfg ≤ v.toNat || pastProd r.cfg r.prod r.cons v then stopCq d f k 1
  else modCq d f k fun r => { r with cons := v }

def evDoorbell (f : Fn) (v : W16) (d : Dev) : Dev :=
  let r := (d.fn f).ev
  if r.st != .run then d
  else if !d.sys.mgrUp then modEv d f fun r => { r with held := some v }
  else if ringDepth r.cfg ≤ v.toNat || pastProd r.cfg r.prod r.cons v then stopEv d f 1
  else modEv d f fun r => { r with cons := v }

/-- The doorbell values held through a manager restart are processed after it (R27). -/
def releaseDoorbells (d : Dev) : Dev :=
  let one (d : Dev) (f : Fn) : Dev :=
    let d := (List.finRange 16).foldl (fun d k =>
      match (d.fn f).sq[k.val].held with
      | some v => sqDoorbell f k v (modSq d f k fun r => { r with held := none })
      | none => d) d
    let d := (List.finRange 16).foldl (fun d k =>
      match (d.fn f).cq[k.val].held with
      | some v => cqDoorbell f k v (modCq d f k fun r => { r with held := none })
      | none => d) d
    match (d.fn f).ev.held with
    | some v => evDoorbell f v (modEv d f fun r => { r with held := none })
    | none => d
  one (one d .pf0) .pf1

/-- DEPTH values 11–15 are reserved (R370). -/
def badDepth (cfg : W32) : Bool := decide (10 < fld cfg 19 16)

def sqMask : W32 := 0x80FF_0000
def cqMask : W32 := 0xBF0F_FFFF
def evMask : W32 := 0xBF0F_0000

/-- The fields of a ring's configuration that a write to an enabled ring changes: all but EN and DEPTH (assumption 13). -/
def cfgKept (old new : W32) : W32 := (new &&& ~~~0x800F_0000) ||| (old &&& 0x800F_0000)

/-- A configuration write with EN = 1 (R330, R331, R370, R372, R374, R375). -/
def ringEnable (f : Fn) (kind : RingKind) (k : Fin 16) (cfg : W32) (d : Dev) : Dev :=
  match kind with
  | .sq => modSq d f k fun r =>
      let c := cfg &&& sqMask
      if bit r.cfg 31 then { r with cfg := cfgKept r.cfg c }
      else if badDepth c then { r with cfg := setFld c 31 31 0, st := .error, cause := 3 }
      else { r with cfg := setFld c 31 31 1, st := .run, cause := 0, prod := 0, cons := 0, held := none }
  | .cq => modCq d f k fun r =>
      let c := cfg &&& cqMask
      if bit r.cfg 31 then { r with cfg := cfgKept r.cfg c }
      else if badDepth c then { r with cfg := setFld c 31 31 0, st := .error, cause := 3 }
      else { r with
        cfg := setFld c 31 31 1, st := .run, cause := 0, prod := 0, cons := 0, phase := true, held := none, sinceMsg := 0 }
  | .ev => modEv d f fun r =>
      let c := cfg &&& evMask
      if bit r.cfg 31 then { r with cfg := cfgKept r.cfg c }
      else if badDepth c then { r with cfg := setFld c 31 31 0, st := .error, cause := 3 }
      else { r with
        cfg := setFld c 31 31 1, st := .run, cause := 0, prod := 0, cons := 0, phase := true, held := none, lost := 0 }

/-- A completion ring's operations that have ended and wait for it (R336, R343). -/
def waitsFor (f : Fn) (k : Fin 16) (o : Op) : Bool := o.fn == f && o.final.isSome && o.cq == k

/-- A configuration write with EN = 0 (R336): a disabled completion ring discards the final completions due to it, and a message that it
was coalescing (DESIGN CHOICE, assumption 205). -/
def ringDisable (f : Fn) (kind : RingKind) (k : Fin 16) (cfg : W32) (d : Dev) : Dev :=
  match kind with
  | .sq => modSq d f k fun r => { r with cfg := setFld (cfg &&& sqMask) 31 31 0, st := .off, cause := 0, held := none }
  | .cq =>
    let d := { d with host := { d.host with ops := d.host.ops.filter fun o => !waitsFor f k o } }
    modCq d f k fun r =>
      { r with cfg := setFld (cfg &&& cqMask) 31 31 0, st := .off, cause := 0, held := none, sinceMsg := 0 }
  | .ev => modEv d f fun r => { r with cfg := setFld (cfg &&& evMask) 31 31 0, st := .off, cause := 0, held := none }

/-- A ring that runs and is not empty, whose bound completion ring has room (R332). -/
def hasEntry (d : Dev) (f : Fn) (k : Fin 16) : Bool :=
  let x := d.fn f
  let r := x.sq[k.val]
  r.st == .run && r.prod != r.cons && cqRoom x.cq[(boundCq x k).val]

/-- The place of a ring in the order of R334: PF0's before PF1's, lower k first. -/
def ringPlace (f : Fn) (k : Fin 16) : Nat :=
  match f with
  | .pf0 => k.val
  | .pf1 => 16 + k.val

/-- How many places after the ring that gave the last entry a ring stands in the round. -/
def ringTurn (d : Dev) (f : Fn) (k : Fin 16) : Nat := (ringPlace f k + 31 - d.host.lastRing.val) % 32

/-- The device fetches from a ring that has an entry, in its turn of the round (R332, R334; where a ring joins a round under way,
DESIGN CHOICE, assumption 182). -/
def canFetch (d : Dev) (f : Fn) (k : Fin 16) : Bool :=
  d.sys.mgrUp && hasEntry d f k &&
  (List.finRange 16).all fun j =>
    (!hasEntry d .pf0 j || decide (ringTurn d f k ≤ ringTurn d .pf0 j)) &&
    (!hasEntry d .pf1 j || decide (ringTurn d f k ≤ ringTurn d .pf1 j))

/-- An entry is consumed: the consumer index moves on, and the round with it. -/
def consumeEntry (d : Dev) (f : Fn) (k : Fin 16) : Dev :=
  let d := modSq d f k fun r => { r with cons := ringNext r.cfg r.cons }
  { d with host := { d.host with lastRing := ⟨ringPlace f k % 32, Nat.mod_lt _ (by decide)⟩ } }

/-- A calibration run by command stops at a port for which no other CAL_RUN waits; its steps leave the calendar (R301, R344). -/
def stopRun (d : Dev) (h : W16) (n : Fin 16) : Dev :=
  let others := d.host.ops.any fun o => o.handle != h && o.final.isNone && match o.cmd with
    | .calRun ports => bit ports n.val
    | _ => false
  if (d.port n).diag.calRunning && (d.port n).diag.calCause == calByCommand && !others then
    dropEntries (d.modPort n fun p => { p with diag := { p.diag with calRunning := false, calTargets := [] } }) fun e =>
      e.ownOf n && e.action == 0x02
  else d

/-- An operation stops what remains of its work, and what remembers it forgets it (R328, R344). -/
def forgetOp (d : Dev) (h : W16) : Dev :=
  let d := dropEntries d fun e => e.handle == h && h != 0xFFFF || e.owner == h && h != 0xFFFF
  let d := if d.dt.slewOp == some h then stopSlew d else d
  let d := match d.raster.next with
    | some (_, some x) => if x == h then { d with raster := { d.raster with next := none } } else d
    | _ => d
  let d := if d.avs.deepOp == some h then { d with avs := { d.avs with deepOp := none, deepStep := 0 } } else d
  let d := if d.cfg.persistOp == some h then { d with cfg := { d.cfg with persistOp := some 0xFFFF } } else d
  let d := if d.boot.activateOp == some h then { d with boot := { d.boot with activateOp := none } } else d
  let d := if d.bist.privOp == some h then { d with bist := { d.bist with privOp := none, privLeft := 0 } } else d
  let d := { d with
    ports := vmap d.ports fun p => { p with
      bist := if p.bist.op == some h then { p.bist with op := none, passRun := false, logicRun := false } else p.bist,
      oam := { p.oam with live := p.oam.live.filter fun x => x.op != some h },
      shr := { p.shr with leaves := p.shr.leaves.filter fun l => l.op != some h } } }
  let d := ((List.finRange 20).filter fun m => (d.lane m).target == some h).foldl (fun d m =>
    relane (d.modLane m fun l => { l with target := none }) m) d
  match findOp d h with
  | some o =>
    match o.cmd with
    | .calRun ports => if o.started then (maskPorts ports).foldl (fun d n => stopRun d h n) d else d
    | .portDown p | .portIsolate p =>
      match portOf p with
      | some n => d.modPort n fun p => { p with shr := { p.shr with
          leaves := p.shr.leaves.filter fun l => match l.what with
            | .shrPort _ => true
            | _ => false } }
      | none => d
    | _ => d
  | none => d

/-- R328: every ring of the function disabled, its long operations cancelled without a completion or an event, their handles
and calendar entries gone; when PF0 stops, the Attic rings and the dump region go too, which ends a dump under way (R530). -/
def stopFunction (d : Dev) (f : Fn) : Dev :=
  let mine := d.host.ops.filter fun o => o.fn == f
  let d := mine.foldl (fun d o => forgetOp d o.handle) d
  let d := { d with host := { d.host with ops := d.host.ops.filter fun o => o.fn != f } }
  let d := d.modFn f fun x => { x with
    sq := vmap x.sq fun r => { r with cfg := setFld r.cfg 31 31 0, st := .off, cause := 0, held := none },
    cq := vmap x.cq fun r => { r with cfg := setFld r.cfg 31 31 0, st := .off, cause := 0, held := none, sinceMsg := 0 },
    ev := { x.ev with cfg := setFld x.ev.cfg 31 31 0, st := .off, cause := 0, held := none } }
  match f with
  | .pf0 => { d with
      ports := vmap d.ports fun p => { p with attic := { p.attic with on := false } },
      flt := { d.flt with halt := { d.flt.halt with
        region := none, pending := d.flt.halt.pending && d.flt.halt.region.isNone } } }
  | .pf1 => d

/-- Locks of a master are freed (R396). -/
def freeLocksOf (d : Dev) (m : Master) : Dev :=
  { d with acc := { d.acc with locks := vmap d.acc.locks fun o => if o.toNat == m.code then 0 else o } }

/-- A Function Level Reset loads the Reset column into the function's own block (R376). -/
def resetBlock (d : Dev) (f : Fn) : Dev :=
  let d := d.setFn f {}
  match f with
  | .pf0 => { d with host := { d.host with hquota := 4096 } }
  | .pf1 => d

/-- The coalescing timer: the message of the completions written since the last (R368). -/
def coalesceFire (f : Fn) (k : Fin 16) (d : Dev) : Dev :=
  let c := (d.fn f).cq[k.val]
  if c.sinceMsg == 0 then d else msix (modCq d f k fun c => { c with sinceMsg := 0 }) f (fld c.cfg 29 24)

/-- A vector is unmasked: a pending message goes out (R368). -/
def unmaskVector (f : Fn) (v : Fin 64) (d : Dev) : Dev :=
  let x := d.fn f
  let e := x.msix[v.val]
  let d := d.setFn f { x with msix := x.msix.set v.val { e with masked := false, pending := false } }
  if e.pending then d.emit (.msix f v.val) else d

def maskVector (f : Fn) (v : Fin 64) (d : Dev) : Dev :=
  let x := d.fn f
  d.setFn f { x with msix := x.msix.set v.val { x.msix[v.val] with masked := true } }

/-! ### The rows -/

def execSqDoorbell (f : Fn) (k : Fin 16) (v : W16) (s : State) : Host.Outcome State Fault Refusal :=
  onLive s (sqDoorbell f k v)

def execCqDoorbell (f : Fn) (k : Fin 16) (v : W16) (s : State) : Host.Outcome State Fault Refusal :=
  onLive s (cqDoorbell f k v)

def execEventDoorbell (f : Fn) (v : W16) (s : State) : Host.Outcome State Fault Refusal := onLive s (evDoorbell f v)

def execRingEnable (f : Fn) (kind : RingKind) (k : Fin 16) (cfg : W32) (s : State) : Host.Outcome State Fault Refusal :=
  onLive s (ringEnable f kind k cfg)

def execRingDisable (f : Fn) (kind : RingKind) (k : Fin 16) (cfg : W32) (s : State) : Host.Outcome State Fault Refusal :=
  onLive s (ringDisable f kind k cfg)

def execCoalesceTimer (f : Fn) (k : Fin 16) (s : State) : Host.Outcome State Fault Refusal := onLive s (coalesceFire f k)

def execMsixUnmask (f : Fn) (v : Fin 64) (s : State) : Host.Outcome State Fault Refusal := onLive s (unmaskVector f v)

end Sys2Proof.Machine
end

