-- ==== Sys2Proof/Machine/Mbx.lean ====
section
/-! DEFINITION. The words, flags, epochs and interrupts of the two host mailboxes (R398–R404). -/
namespace Sys2Proof.Machine

def mbx (d : Dev) : Box → Mbx
  | .s => d.mbxS
  | .n => d.mbxN

def setMbx (d : Dev) (b : Box) (x : Mbx) : Dev :=
  match b with
  | .s => { d with mbxS := x }
  | .n => { d with mbxN := x }

def modMbx (d : Dev) (b : Box) (f : Mbx → Mbx) : Dev := setMbx d b (f (mbx d b))

/-- Conditions of R404. -/
def cD2h : Nat := 0
def cFlush : Nat := 1
def cEmpty : Nat := 2

/-- A condition rises for one host master: a message on vector 17 if its bit of MBX_x_IE is set, or a pending condition of the
sideband, which drives SB_IRQ_N low for as long as its bit is set. -/
def condFor (d : Dev) (b : Box) (c : Nat) (who : Nat) : Dev :=
  let on := bit (mbx d b).ie (3 * c + who - 1)
  match who with
  | 1 => if on then msix d .pf0 17 else d
  | 2 => if on then msix d .pf1 17 else d
  | 3 => modMbx d b fun x => { x with pend := setBit x.pend c true }
  | _ => d

/-- A condition rises for the master of a host code; code 0 names every master. -/
def condition (d : Dev) (b : Box) (c : Nat) (host : BitVec 2) : Dev :=
  if host == 0 then condFor (condFor (condFor d b c 1) b c 2) b c 3 else condFor d b c host.toNat

/-- The manager's word reaches D2H, or is held until D2H is free (R399). -/
def postD2h (d : Dev) (b : Box) (w : W32) (dst : BitVec 2) : Dev :=
  modMbx d b fun x => { x with held := x.held ++ [(w, dst)] }

/-- The oldest word held goes into a free D2H. -/
def writeD2h (d : Dev) (b : Box) : Dev :=
  let x := mbx d b
  match x.held with
  | (w, dst) :: rest =>
    if x.d2hFull then d
    else condition (setMbx d b { x with d2h := w, d2hFull := true, d2hDst := dst, held := rest }) b cD2h dst
  | [] => d

/-- The manager reads H2D. -/
def takeH2d (d : Dev) (b : Box) : Dev :=
  let x := mbx d b
  if x.h2dFull then condition (setMbx d b { x with h2dFull := false }) b cEmpty x.wrSrc else d

/-- A manager restart: an unread H2D word is discarded, an unread D2H word stays (R29, R400). A write that was dropped in this tick goes
with the flushed word, without OVERRUN (R401). A flush interrupts the writer also where FLUSHED still stands from an earlier one (DESIGN
CHOICE, assumption 208). -/
def flushMbx (d : Dev) (b : Box) : Dev :=
  let d := modMbx d b fun x => { x with
    d2hEpoch := x.d2hEpoch + 1, held := [], flushedAt := if d.dt.running then some d.dt.dt else none,
    overrun := x.overrun && !(x.h2dFull && x.overrunAt == some d.dt.dt) }
  let x := mbx d b
  if x.h2dFull then
    let d := setMbx d b { x with h2dFull := false, flushed := true }
    condition (condition d b cFlush x.wrSrc) b cEmpty x.wrSrc
  else d

/-- A host-side reset of a master (R400); `any` is PERST_N, which also discards a word for every master. The words that the manager
holds back for the master go with the one in D2H (DESIGN CHOICE, assumption 207). -/
def hostResetMbx (d : Dev) (m : Master) (any : Bool) (b : Box) : Dev :=
  modMbx d b fun x =>
    let x := if x.h2dFull && x.wrSrc == m.host then { x with h2dEpoch := x.h2dEpoch + 1 } else x
    let x := { x with held := x.held.filter fun w => !(w.2 == m.host) }
    if x.d2hFull && (x.d2hDst == m.host || (any && x.d2hDst == 0)) then
      { x with d2hFull := false, pend := setBit x.pend cD2h false }
    else x

def hostReset (d : Dev) (m : Master) (any : Bool) : Dev := hostResetMbx (hostResetMbx d m any .s) m any .n

/-- The notice of a code and detail, to every master (R402). -/
def postNotice (d : Dev) (code detail : Nat) : Dev :=
  let w := at_ 28 0xF ||| at_ 16 code ||| at_ 0 detail
  postD2h (postD2h d .s w 0) .n w 0

/-- A master that reaches a mailbox (R380). -/
def mbxReach (d : Dev) (m : Master) (b : Box) : Bool :=
  match b with
  | .s => passesP d m
  | .n => true

end Sys2Proof.Machine
end

