-- ==== Sys2Proof/Machine/Recover.lean ====
section
/-! DEFINITION. Deadlines, and the recovery of the manager and of the port controllers (R25–R29, R344, R450). -/
namespace Sys2Proof.Machine

/-! ### Deadlines (R268, R308, R344) -/

/-- Passes of the device's own that waited for an operation go on (R559). -/
def resumePasses (d : Dev) : Dev :=
  d.eachPort fun d n =>
    let b := (d.port n).bist
    match b.waiting with
    | some k =>
      if b.passRun || b.op.isSome then d
      else placeSlice (d.modPort n fun p => { p with bist := { p.bist with passRun := true, slice := k, waiting := none } }) n
    | none => d

/-- A deadline passes: the operation stops what remains of it and completes with TIMEOUT. -/
def expireOp (d : Dev) (h : W16) : Dev :=
  match findOp d h with
  | none => d
  | some o =>
    if o.final.isSome then d
    else
      let d := match o.cmd with
        | .portUp _ | .configCommit | .fwActivate _ => d
        | .timeSet .. => if d.dt.slewOp == some h then { d with dt := { d.dt with slewOp := none } } else d
        | .laneSpare p _ =>
          match portOf p with
          | some n => timeoutSpare d h n
          | none => d
        | _ => resumePasses (forgetOp d h)
      endOp d h stTimeout

/-! ### The boot record (R433) -/

/-- The copy in force: a correct CRC and the higher count. -/
def bootRecord (f : Flash) : BootRec :=
  match f.rec0, f.rec1 with
  | some a, some b => if a.count < b.count then b else a
  | some a, none => a
  | none, some b => b
  | none, none => ⟨0, false, false, false, false, false, false⟩

/-- An update goes to the other copy, with the count increased. -/
def writeRecord (d : Dev) (g : BootRec → BootRec) : Dev :=
  let f := d.boot.flash
  let r := bootRecord f
  let new := some { g r with count := r.count + 1 }
  let second := match f.rec0 with
    | some a => a == r
    | none => false
  let f := if second then { f with rec1 := new } else { f with rec0 := new }
  { d with boot := { d.boot with flash := f } }.emit (.flashWrite 0)

def fwImage (f : Flash) (k : FwKind) (slotB : Bool) : Option FwImage :=
  match k with
  | .mgr => if slotB then f.mgrB else f.mgrA
  | .pc => if slotB then f.pcB else f.pcA

def fwSvn (i : Option FwImage) : W8 :=
  match i with
  | some x => x.svn
  | none => 0

def fwVersion (i : Option FwImage) : W32 :=
  match i with
  | some x => x.version
  | none => 0

/-- What runs of a kind, with its SVN and version. -/
def runSlot (b : BootSt) (k : FwKind) (slot trial : Bool) : BootSt :=
  let i := fwImage b.flash k slot
  match k with
  | .mgr => { b with mgrSlot := slot, mgrTrial := trial, mgrSvn := fwSvn i, mgrVer := fwVersion i }
  | .pc => { b with pcSlot := slot, pcTrial := trial, pcSvn := fwSvn i, pcVer := fwVersion i }

def onTrial (b : BootSt) : FwKind → Bool
  | .mgr => b.mgrTrial
  | .pc => b.pcTrial

/-- An unconfirmed kind reverts to its previous slot (R450). -/
def revertFw (d : Dev) (k : FwKind) : Dev :=
  if onTrial d.boot k then
    let r := bootRecord d.boot.flash
    let slot := match k with
      | .mgr => r.mgrPrev
      | .pc => r.pcPrev
    let d := writeRecord d fun r => match k with
      | .mgr => { r with mgrSlot := r.mgrPrev, mgrTrial := false }
      | .pc => { r with pcSlot := r.pcPrev, pcTrial := false }
    { d with boot := { runSlot d.boot k slot false with reverted := true } }
  else d

/-- 60 s in RUN without a watchdog expiry: TRIAL is cleared, and a higher SVN raises the minimum while increments remain,
32 in all (R436, R450). -/
def confirmFw (k : FwKind) (d : Dev) : Dev :=
  if onTrial d.boot k && d.sys.mode == .run then
    let d := writeRecord d fun r => match k with
      | .mgr => { r with mgrTrial := false }
      | .pc => { r with pcTrial := false }
    let d := { d with boot := match k with
      | .mgr => { d.boot with mgrTrial := false }
      | .pc => { d.boot with pcTrial := false } }
    let svn := match k with
      | .mgr => d.boot.mgrSvn
      | .pc => d.boot.pcSvn
    if d.boot.otpSvn < svn && svn ≤ 32 then
      { d with boot := { d.boot with otpSvn := svn } }.emit (.otpWrite 1 svn.toNat)
    else d
  else d

/-! ### Leaving MAINTAIN (R31, R451, R555) -/

/-- Unused fuse records (R555). -/
def fuseFree (d : Dev) : Nat := 96 - (Config.fuses ++ d.bist.fused).length

/-- Queued repairs go into OTP, as far as records remain (R555). -/
def programFuses (d : Dev) : Dev :=
  if policy d == 1 then
    let now := d.bist.fusePend.take (fuseFree d)
    let d := { d with bist := { d.bist with fused := d.bist.fused ++ now, fusePend := d.bist.fusePend.drop (fuseFree d) } }
    now.foldl (fun d r => d.emit (.otpWrite 0 (r.1 * 65536 + r.2.1 * 256 + r.2.2))) d
  else d

/-- MAINTAIN ends: RUN, and the configured start rule for each port. -/
def endMaintain (d : Dev) : Dev :=
  let d := programFuses d
  { d with sys := { d.sys with mode := .run } }.eachPort autoRule

/-- The processors that a FW_ACTIVATE restarted run: it completes, and the device enters RUN (R450 step 3). -/
def activateCheck (d : Dev) : Dev :=
  let up := d.sys.mgrUp && allPorts.all fun n => !(d.port n).on || (d.port n).pc.up
  match d.boot.activateOp with
  | some h =>
    if up then
      let d := endOp { d with boot := { d.boot with activateOp := none } } h stSuccess
      if d.sys.mode == .maintain then endMaintain d else d
    else d
  | none => d

/-! ### Port controllers (R25, R26, R405) -/

/-- An operation that port controller n runs. -/
def pcRuns (n : Fin 16) (o : Op) : Bool := o.controller == some n

/-- An action that needs controller n. -/
def needsPc (d : Dev) (n : Fin 16) (e : CalEntry) : Bool :=
  ((e.action == 0x02 || e.action == 0x03) && bit e.ports n.val) ||
  (e.action == 0x08 && captureWaits d (e.arg.setWidth 16) == some n)

/-- What needs controller n, and has been admitted to a blanking window there or is due, waits for the next window (R26). -/
def deferEntry (d : Dev) (n : Fin 16) (e : CalEntry) : CalEntry :=
  let admitted (x : Fin 16 × W64 × Bool) : Bool := x.1 == n && x.2.2
  if !needsPc d n e then e
  else if e.trig == 3 then
    if e.plan.any admitted then { e with waiting := true, plan := e.plan.filter fun x => !admitted x } else e
  else if !(d.port n).pc.up && decide (e.time ≤ d.dt.dt) && e.trig == 0 then { e with waiting := true }
  else e

def deferWork (d : Dev) (n : Fin 16) : Dev := { d with hal := { d.hal with cal := d.hal.cal.map (deferEntry d n) } }

/-- A reset of the controller: the state of the port and its link stay. -/
def pcReset (d : Dev) (n : Fin 16) : Dev :=
  let d := d.modPort n fun p => { p with
    pc := { p.pc with
      up := false, flushes := satAdd p.pc.flushes p.pc.toPc, toPc := 0, epochToMgr := p.pc.epochToMgr + 1 },
    oam := { p.oam with live := p.oam.live.filter fun x => x.op.isNone } }
  endOps (deferWork d n) (pcRuns n) stPcReset

def pcWdog (n : Fin 16) (d : Dev) : Dev :=
  if (d.port n).on then pcReset (revertFw (moment d (srcPort n 11)) .pc) n else d

/-- The controller is back: the GAP record, the words of its queue are read, and what waited goes on. -/
def pcBack (n : Fin 16) (d : Dev) : Dev :=
  let p := d.port n
  if p.on && !p.pc.up then
    activateCheck (atticGap ((deferWork d n).modPort n fun p => { p with pc := { p.pc with up := true, toPc := 0 } }) n)
  else d

/-! ### The manager (R27–R29) -/

/-- A restart of the manager: ports, links and hardware run on. -/
def mgrRestart (d : Dev) : Dev :=
  let d := { d with
    sys := { d.sys with mgrUp := false, restarts := satInc d.sys.restarts },
    ports := vmap d.ports fun p => { p with pc := { p.pc with epochToPc := p.pc.epochToPc + 1 } } }
  freeLocksOf (flushMbx (flushMbx d .s) .n) .mgr

def mgrWdog (d : Dev) : Dev :=
  if d.sys.mgrUp then mgrRestart (revertFw (moment d 0x040) .mgr) else d

/-- The manager restarts: it ran before, and is not up. At the end of a boot or of a wake it comes up for the first time. -/
def mgrRestarts (d : Dev) : Bool := !d.sys.mgrUp && d.boot.verified && d.sys.mode != .boot && d.sys.mode != .deep

/-- The manager is not back: MGR_STUCK, and a further restart while it is live (R514). -/
def mgrStuck (d : Dev) : Dev :=
  if !mgrRestarts d then d
  else if isLive d 0x041 then mgrRestart d
  else setLive d 0x041 true

/-- Privileged tests that have all ended complete their command, once the manager runs (R561, R562). -/
def privCheck (d : Dev) : Dev :=
  match d.bist.privOp with
  | some h =>
    if d.bist.privLeft == 0 && d.bist.privRun == 0 && d.sys.mgrUp then
      let d := { d with bist := { d.bist with privOp := none } }
      match findOp d h with
      | some o => if o.fails1 == 0 then endOp d h stSuccess else endOp d h stTestFail 0 0 o.fails1
      | none => d
    else d
  | none => d

/-- A dump that waits for the manager is written (R530 steps 2 and 3). -/
def resumeDump (d : Dev) : Dev :=
  if d.flt.halt.pending && d.flt.halt.flashing.isNone then writeDump d false else d

/-- The completions that port controllers have held for the manager reach it (R27). -/
def drainQueues (d : Dev) : Dev :=
  { d with ports := vmap d.ports fun p => { p with pc := { p.pc with toMgr := 0, held := 0 } } }

/-! ### The rows -/

def execMgrWdog (s : State) : Host.Outcome State Fault Refusal := onLive s mgrWdog
def execMgrStuck (s : State) : Host.Outcome State Fault Refusal := onLive s mgrStuck
def execPcWdog (n : Fin 16) (s : State) : Host.Outcome State Fault Refusal := onLive s (pcWdog n)
def execPcRestartDone (n : Fin 16) (s : State) : Host.Outcome State Fault Refusal := onLive s (pcBack n)
def execFirmwareConfirmed (k : FwKind) (s : State) : Host.Outcome State Fault Refusal := onLive s (confirmFw k)

end Sys2Proof.Machine
end

