-- ==== Sys2Proof/Machine/Faults.lean ====
section
/-! DEFINITION. The rows of the fault collector: occurrences, the FAULT event, FLT_FORCE, the dump timeout and the temperature
(R514–R531). -/
namespace Sys2Proof.Machine

/-- The isolation cells of a powered-off domain hold its sources not live (R515). -/
def cellsHold (d : Dev) (src : BitVec 10) : Bool :=
  match srcScope src with
  | some (.port n) => !(d.port n).on
  | some (.lane m) => if m.val < 18 then !d.pwr.laneOn else !d.pwr.pwOn
  | _ => false

/-- The hardware condition of a source. -/
def faultOccurs (src : BitVec 10) (e : FaultEdge) (d : Dev) : Dev :=
  if cellsHold d src then d
  else match e with
    | .moment => if isLive d src then d else followUp (moment d src) src
    | .begins => if isLive d src then setLive d src true else followUp (setLive d src true) src
    | .ends =>
      let d := setLive d src false
      match srcScope src with
      | some (.lane m) => freeReserved d m
      | _ => d

/-- One FAULT event, and for a port source its FAULT record, from the oldest entry of the queue (R356, R359, R517). -/
def faultEventPost (d : Dev) : Dev :=
  match d.flt.queue with
  | [] => d
  | o :: rest =>
    if !d.sys.mgrUp then d
    else
      let d := { d with flt := { d.flt with queue := rest } }
      let scope := match srcScope o.src with
        | some (.port n) => scopePort n
        | some (.lane m) => scopeLane m
        | _ => 0
      let payload := leBytes 2 o.src.toNat ++ [o.level.setWidth 8, BitVec.ofNat 8 (b2n o.escalated)]
      let d := eventTo d .pf0 o.stamp o.pos 0x0005 scope payload o.handle
      let d := eventTo d .pf1 o.stamp o.pos 0x0005 scope payload o.handle
      match srcScope o.src with
      | some (.port n) => atticAt d n o.stamp o.pos 0x07 (payload.take 3)
      | _ => d

/-- The groups in the order of their registers (R538): 0–8 device blocks, 16–31 ports, 32–51 lanes. -/
def groupScope (g : Nat) : Option Scope :=
  if h : g < 9 then some (.device ⟨g, h⟩)
  else if h : 16 ≤ g ∧ g < 32 then some (.port ⟨g - 16, by omega⟩)
  else if h : 32 ≤ g ∧ g < 52 then some (.lane ⟨g - 32, by omega⟩)
  else none

/-- Sources of one tick in the order of R522: descending level, then ascending ID. -/
def tickOrder (d : Dev) (s : Scope) (ks : List Nat) : List Nat :=
  let level (k : Nat) : Nat := match srcLevels (srcOf s k) with
    | some (dflt, cap) => newLevel (group d s) k dflt cap (scopeLimit s)
    | none => 0
  [3, 2, 1, 0].flatMap fun l => ks.filter fun k => level k == l

/-- FLT_FORCE is written (R524). -/
def forceWrite (m : Master) (g : Nat) (v : W16) (d : Dev) : Dev :=
  match groupScope g with
  | none => d
  | some s =>
    if !reachesAll m then d
    else
      let v := v &&& groupMask s
      let was := (group d s).live
      let rises := (List.range 16).filter fun k => bit v k && !bit was k
      let order := tickOrder d s rises
      let d := setGroup d s { group d s with force := v }
      order.foldl (fun d k =>
        match srcLevels (srcOf s k) with
        | some (dflt, _) => followUp (forceOccur d (srcOf s k) dflt) (srcOf s k)
        | none => d) (match s with
          | .lane m => freeReserved d m
          | _ => d)

/-- The dump is not finished in time: the manager is reset, and the boot ROM routine writes it (R530 step 4). -/
def dumpTimeout (d : Dev) : Dev :=
  if d.flt.halt.pending && !d.flt.halt.rom && d.sys.mode != .boot then writeDump (mgrRestart d) true else d

/-- One sample of the hottest sensor (R514). -/
def temperature (celsius : Int) (d : Dev) : Dev :=
  setLive (setLive d 0x024 (decide (135 ≤ celsius))) 0x023 (decide (125 < celsius))

/-! ### The registers of the collector (R533–R539) -/

def fltSum (f : FltSt) : W32 :=
  let ports := (List.range 16).foldl (fun w n => w ||| atB n ((f.port.toList.getD n {}).lat != 0)) 0
  let lanes := (List.range 5).foldl
    (fun w g => w ||| atB (16 + g) ((List.range 4).any fun i => (f.lane.toList.getD (4 * g + i) {}).lat != 0)) 0
  let dev := (List.range 9).foldl (fun w i => w ||| atB (21 + i) ((f.dev.toList.getD i {}).lat != 0)) 0
  ports ||| lanes ||| dev

def fltHistStat (f : FltSt) : W32 := at_ 16 f.total.toNat ||| at_ 8 f.evLost.toNat ||| at_ 0 f.hist.length

def fltHaltStat (h : HaltSt) : W32 :=
  at_ 30 h.state.toNat ||| atB 29 h.truncated ||| atB 28 h.rom ||| atB 27 h.flashValid ||| at_ 0 h.cause.toNat

/-- A read of FLT_LAT clears the bits whose source is not live (R13, R14, R516). -/
def readLat (d : Dev) (s : Scope) : W16 × Dev :=
  let g := group d s
  (g.lat, setGroup d s { g with lat := g.lat &&& g.live })

/-! ### The rows -/

def execFaultOccurrence (src : BitVec 10) (e : FaultEdge) (s : State) : Host.Outcome State Fault Refusal :=
  onLive s (faultOccurs src e)
def execFaultEventPost (s : State) : Host.Outcome State Fault Refusal := onLive s faultEventPost
def execFltForceWrite (m : Master) (g : Nat) (v : W16) (s : State) : Host.Outcome State Fault Refusal :=
  onLive s (forceWrite m g v)
def execDumpTimeout (s : State) : Host.Outcome State Fault Refusal := onLive s dumpTimeout
def execTemperatureSample (celsius : Int) (s : State) : Host.Outcome State Fault Refusal := onLive s (temperature celsius)

end Sys2Proof.Machine
end

