-- ==== Sys2Proof/Machine/MemInt.lean ====
section
/-! DEFINITION. Scrubbing, corrections, uncorrectable words, and the self-tests that are no calendar actions (R542–R562). -/
namespace Sys2Proof.Machine

/-! ### What an uncorrectable word does (R544–R546) -/

/-- The port of a port memory. -/
def onPort (d : Dev) (x : Fin 132) (f : Dev → Fin 16 → Dev) : Dev :=
  match memPort x with
  | some n => f d n
  | none => d

/-- The ID of a memory within its scope (R541). -/
def memId (x : Fin 132) : Nat := if x.val < 128 then x.val % 8 else x.val - 120

/-- A memory under row and column parity (R541). -/
def parityMem (x : Fin 132) : Bool := memId x == 3 || memId x == 4 || memId x == 10 || memId x == 11

/-- The word of 16 B, or the parity block of 32 B, that an address lies in: the unit of correction and of poison (R542, R543; for the
tracker DEDUCED, assumption 213). -/
def memUnit (x : Fin 132) (addr : Nat) : Nat := if parityMem x then addr / 32 * 32 else addr / 16 * 16

/-- An access that its memory can have. -/
def accessFits (x : Fin 132) : MemAccess → Bool
  | .pcFetch => memId x == 3
  | .pcLoad | .pcDma => memId x == 4
  | .mgrAccess => memId x == 10 || memId x == 11
  | .reorder _ _ => memId x == 0
  | .upstream => memId x == 1
  | .coefficient _ _ _ => memId x == 2
  | .handleEntry _ => memId x == 8

def contentFits (x : Fin 132) : ScrubContent → Bool
  | .dead => true
  | .reorderLive _ _ => memId x == 0
  | .firmware => memId x == 3 || memId x == 10
  | .pcData => memId x == 4
  | .mgrData => memId x == 11
  | .upstreamLive => memId x == 1
  | .coefLive _ _ _ => memId x == 2
  | .handleLive _ => memId x == 8
  | .cellarSnapshot _ | .cellarSave => memId x == 9

/-- A receiver block, by an open choice of the three, goes back to its anchor. -/
def revertBlock (p : Port) (k : Nat) : Port :=
  { p with rx := { p.rx with live := {
      ec := if k == 0 then p.rx.anchor.ec else p.rx.live.ec,
      ffe := if k == 1 then p.rx.anchor.ffe else p.rx.live.ffe,
      dfe := if k == 2 then p.rx.anchor.dfe else p.rx.live.dfe } } }

/-- A live coefficient is lost. -/
def loseCoef (d : Dev) (n : Fin 16) (anchorLost : Bool) (src : Option (Fin 16)) (far : Bool) : Dev :=
  match src with
  | some s =>
    modFilt d n s far fun f =>
      if anchorLost then toOut d.dt.dt else { f with c := f.a }
  | none =>
    if anchorLost then if (d.port n).link.st == .up then retrain d n false else d
    else { d.modPort n fun p => revertBlock p (Config.freeNat d.free % 3) with free := d.free + 1 }

/-- The operations whose data a halted DMA channel was writing end with DMA_ERROR (R345, R365): a running CAPTURE at the offset of its
next page, and a COUNTERS_READ whose completion is still to be written; where in its 128 bytes is the rules' to leave open. -/
def haltedOps (d : Dev) (n : Fin 16) : Dev :=
  d.host.ops.foldl (fun d o =>
    match o.cmd, o.final with
    | .capture _ _ _ len _, none =>
      if capRuns n o then endWith o stDmaError (BitVec.ofNat 16 ((len.toNat / 4096 - o.left) * 64)) 0 0 d else d
    | .countersRead p _ _, some r =>
      if portOf p == some n && r.status == stSuccess then
        { modOp d o.handle fun o => { o with final := some { r with status := stDmaError, detail := BitVec.ofNat 16 (Config.freeNat d.free % 2) } } with
          free := d.free + 1 }
      else d
    | _, _ => d) d

/-- The effect of an uncorrectable access on the data it reads. -/
def loseData (d : Dev) (x : Fin 132) (a : MemAccess) : Dev :=
  match a with
  | .pcFetch | .pcLoad => onPort d x pcReset
  | .pcDma => onPort d x fun d n =>
      haltedOps (d.modPort n fun p => { p with attic := { p.attic with dmaHalt := true } }) n
  | .mgrAccess => mgrRestart d
  | .reorder seq slot => onPort d x fun d n => notePeak (noteDirty (modRtx d n fun r => setEntry r seq slot none) n) n
  | .upstream => onPort d x fun d n => d.modPort n fun p => { p with up := { p.up with
      blocks := match p.up.blocks with
        | _ :: bs => errorBlock :: bs
        | [] => [],
      drop := satInc p.up.drop } }
  | .coefficient l s f => onPort d x fun d n => loseCoef d n l s f
  | .handleEntry h => dropOp (forgetOp d h) h

/-- The source that an uncorrectable access raises. -/
def accessSrc (x : Fin 132) : MemAccess → BitVec 10
  | .reorder _ _ | .upstream => repairSrc x
  | .coefficient l _ _ => if l then lossSrc x else repairSrc x
  | _ => lossSrc x

/-- An occurrence whose FAULT event carries a handle. -/
def momentFor (d : Dev) (src : BitVec 10) (h : W16) : Dev :=
  let k := d.flt.queue.length
  let d := moment d src
  let q := d.flt.queue
  { d with flt := { d.flt with queue := q.take k ++ (q.drop k).map fun o => { o with handle := h } } }

def raiseAccess (d : Dev) (x : Fin 132) (a : MemAccess) : Dev :=
  match a with
  | .handleEntry h => momentFor d (accessSrc x a) h
  | _ => moment d (accessSrc x a)

/-- TRACK_EN (R566). -/
def trackOn (d : Dev) : Bool := bit d.bist.memCfg 1

/-- A word is found uncorrectable: it is counted and poisoned; at an address in WATCH it is a hard fault (R545, R547). -/
def watched (m : MemSt) (addr : Nat) : Bool := m.track.any fun t => t.1 == addr && t.2.2

def poison (d : Dev) (x : Fin 132) (addr : Nat) : Dev :=
  let d := if trackOn d && watched (d.memSt x) addr then hardFault d x addr else d
  d.modMem x fun m => { m with uncorr := satInc m.uncorr, poisoned := addr :: m.poisoned }

def uncorrectableAccess (x : Fin 132) (addr : Nat) (a : MemAccess) (d : Dev) : Dev :=
  if (d.memSt x).poisoned.contains addr then loseData d x a
  else raiseAccess (loseData (poison d x addr) x a) x a

/-- The access that finds live content as the scrubber does. -/
def asAccess : ScrubContent → Option MemAccess
  | .pcData => some .pcLoad
  | .mgrData => some .mgrAccess
  | .upstreamLive => some .upstream
  | .coefLive l s f => some (.coefficient l s f)
  | .handleLive h => some (.handleEntry h)
  | .reorderLive q k => some (.reorder q k)
  | _ => none

/-- The action of R546. -/
def scrubLost (d : Dev) (x : Fin 132) (addr : Nat) (c : ScrubContent) : Dev :=
  match asAccess c with
  | some a => raiseAccess (loseData d x a) x a
  | none =>
    match c with
    | .firmware =>
      let d := { d with bist := { d.bist with reload := d.bist.reload ++ [(x.val, addr / 4096)] } }
      moment d (lossSrc x)
    | .cellarSnapshot n =>
      let d := d.modPort n fun p => { p with snap := p.snap.map voidSnap }
      moment d (repairSrc x)
    | _ => moment d (repairSrc x)

/-! ### Corrections (R547, R549, R550) -/

/-- The first COUNT entry with the lowest count. -/
def weakest : List (Nat × Nat × Bool) → Option (Nat × Nat × Bool)
  | [] => none
  | t :: ts =>
    match weakest ts with
    | some u => if !t.2.2 && t.2.1 ≤ u.2.1 then some t else some u
    | none => if t.2.2 then none else some t

/-- A corrected word enters the tracker, or counts in it. -/
def track (m : MemSt) (addr : Nat) : MemSt :=
  if m.track.any fun t => t.1 == addr then
    { m with track := m.track.map fun t => if t.1 == addr then (t.1, t.2.1 + 1, t.2.2) else t }
  else if m.track.length < 8 then { m with track := m.track ++ [(addr, 1, false)] }
  else match weakest m.track with
    | some w => { m with track := (m.track.filter fun t => t.1 != w.1) ++ [(addr, 1, false)] }
    | none => { m with trkOvf := satInc m.trkOvf }

/-- The entry of an address in WATCH. -/
def watch (m : MemSt) (addr : Nat) : MemSt :=
  { m with track := m.track.map fun t => if t.1 == addr then (t.1, t.2.1, true) else t }

/-- A correction on a read. -/
def correctedRead (x : Fin 132) (addr : Nat) (d : Dev) : Dev :=
  let d := d.modMem x fun m => { m with corr := satInc m.corr, poisoned := m.poisoned.filter (· != addr) }
  if !trackOn d then d
  else if watched (d.memSt x) addr then hardFault d x addr
  else d.modMem x fun m => track m addr

/-- A word at count 4 is written back out of turn, and watched. -/
def trackerWriteBack (x : Fin 132) (addr : Nat) (d : Dev) : Dev :=
  if (d.memSt x).track.any fun t => t.1 == addr && decide (4 ≤ t.2.1) then d.modMem x fun m => watch m addr else d

/-- LAP_MAX in DT ticks (R566). -/
def lapMax (d : Dev) : Nat := usTicks (100000 * dbOr (fld d.bist.memCfg 31 16) 10)

/-- Rows under test at a port, or being substituted, are skipped. -/
def scrubSkips (d : Dev) (x : Fin 132) (addr : Nat) : Bool := (d.memSt x).subst.contains (memRow addr)

def scrubVisit (x : Fin 132) (addr : Nat) (f : ScrubFinding) (d : Dev) : Dev :=
  match f with
  | .lapEnd t =>
    d.modMem x fun m => { m with
      lap := BitVec.ofNat 32 (min t 0xFFFFFFFF), lapLate := if lapMax d < t then satInc m.lapLate else m.lapLate }
  | .clean =>
    d.modMem x fun m => { m with
      track := m.track.filter fun t => !(t.1 == addr && t.2.2 && !m.lost.contains addr), poisoned := m.poisoned.filter (· != addr) }
  | .corrected =>
    if scrubSkips d x addr then d
    else
      let d := d.modMem x fun m => { m with corr := satInc m.corr, poisoned := m.poisoned.filter (· != addr) }
      if !trackOn d then d
      else if watched (d.memSt x) addr then hardFault d x addr
      else d.modMem x fun m => watch (track m addr) addr
  | .uncorrectable c =>
    if scrubSkips d x addr || (d.memSt x).poisoned.contains addr then d
    else scrubLost (poison d x addr) x addr c

/-- In DEEP only the Cellar is scrubbed, where CELLAR_SCRUB allows it: what is found lost is lost for the wake (R500, R551). -/
def scrubDeep (x : Fin 132) (f : ScrubFinding) (d : Dev) : Dev :=
  if x.val == 129 && bit d.clk.gateDeep 0 then
    match f with
    | .uncorrectable (.cellarSnapshot n) =>
      d.modPort n fun p => { p with snap := p.snap.map voidSnap }
    | .uncorrectable .cellarSave => { d with avs := { d.avs with cellar := { d.avs.cellar with area := true } } }
    | _ => d
  else d

/-- The copy of a row is complete, and the repair map switches (R553). -/
def substDone (x : Fin 132) (array row : Nat) (d : Dev) : Dev :=
  d.modMem x fun m =>
    if m.subst.contains (array, row) then
      { m with subst := m.subst.erase (array, row), repaired := m.repaired ++ [(array, row)] }
    else m

/-- A page reload ends: a failed check resets the processor (R546). -/
def pageReload (x : Fin 132) (ok : Bool) (d : Dev) : Dev :=
  match d.bist.reload.find? fun r => r.1 == x.val with
  | none => d
  | some r =>
    let d := { d with bist := { d.bist with reload := d.bist.reload.erase r } }
    if ok then d
    else match memPort x with
      | some n => pcReset d n
      | none => mgrRestart d

/-! ### Tests (R559–R562) -/

/-- A pass starts on every UP port that runs none of its own. -/
def insvcTimer (d : Dev) : Dev :=
  if bit d.bist.cfg 2 then
    d.eachPort fun d n =>
      let p := d.port n
      if p.link.st == .up && !(p.bist.passRun && p.bist.op.isNone) then startPass d n none else d
  else d

/-- A port's logic test ends. -/
def logicEnd (n : Fin 16) (failing : W32) (d : Dev) : Dev :=
  let b := (d.port n).bist
  if !b.logicRun then d
  else
    let bad := failing != 0
    let d := d.modPort n fun p => { p with bist := { p.bist with logicRun := false, logicFail := bad, op := none } }
    let d := match b.op with
      | some h => partDone d h (if bad then BitVec.ofNat 32 (2 ^ n.val) else 0) failing
      | none => d
    if bad then logicFails d n else d

/-- Supply groups (R561). -/
def privGroup (i : Nat) : Nat := if i ≤ 1 then 0 else i

def groupBusy (run : BitVec 4) (i : Nat) : Bool := (List.range 4).any fun j => bit run j && privGroup j == privGroup i

/-- The test that starts next. -/
def nextPriv (d : Dev) : Option Nat := (List.range 4).find? fun i => bit d.bist.privLeft i && !groupBusy d.bist.privRun i

/-- A privileged test starts, at least 500 µs after the one before. The HPLL test unlocks HPLL, and the manager SRAM test stops the
manager. -/
def privStart (i : Fin 4) (d : Dev) : Dev :=
  if d.sys.mode == .maintain && d.bist.privOp.isSome && nextPriv d == some i.val then
    let d := match d.bist.privAt with
      | some t => d.reach (t + BitVec.ofNat 64 (usTicks 500))
      | none => d
    let d := { d with bist := { d.bist with
      privRun := setBit d.bist.privRun i.val true, privLeft := setBit d.bist.privLeft i.val false, privAt := some d.dt.dt } }
    let d := if i.val == 1 && d.clk.hpll == .locked then { d with clk := { d.clk with hpll := .acquire } } else d
    if i.val == 3 then mgrRestart d else d
  else d

/-- A row of the manager's SRAMs, IDs 10 and 11. -/
def sramRow (r : Fin 132 × Fin 8 × Fin 128) : Bool := (r.1.val == 130 || r.1.val == 131) && decide (r.2.1.val < memArrays r.1)

/-- It ends, and HPLL is locked again; a failure of the Shroud bus bars the reader's filters for the source, and the failing rows
of the manager's SRAMs are handled under R554. -/
def privEnd (i : Fin 4) (failed : Bool) (src reader : Fin 16) (rows : List (Fin 132 × Fin 8 × Fin 128)) (d : Dev) : Dev :=
  if !bit d.bist.privRun i.val then d
  else
    let d := { d with bist := { d.bist with
      privRun := setBit d.bist.privRun i.val false, privFail := setBit d.bist.privFail i.val failed } }
    let d := if i.val == 1 && d.clk.hpll == .acquire then { d with clk := { d.clk with hpll := .locked } } else d
    let d := if i.val == 3 && failed then rows.foldl (fun d r => repairRow d r.1 r.2.1.val r.2.2.val) d else d
    let d :=
      if !failed then d
      else
        let d := moment d 0x060
        let tests : W32 := BitVec.ofNat 32 (2 ^ i.val)
        let bus := i.val == 2
        let named : W32 := if bus then Config.freeWord d.free &&& 0xFFFF_FFF0 else 0
        let d := if bus then { d with free := d.free + 1 } else d
        let d := match d.bist.privOp with
          | some h => modOp d h fun o => { o with fails1 := o.fails1 ||| tests ||| named }
          | none => d
        if bus then
          let e := d.modPort reader fun p => { p with shr := { p.shr with barred := setBit p.shr.barred src.val true } }
          matchFilter d (matchFilter d e reader src false) reader src true
        else d
    privCheck d

/-! ### The rows -/

def execScrubVisit (x : Fin 132) (addr : Nat) (f : ScrubFinding) (s : State) : Host.Outcome State Fault Refusal :=
  let fits := match f with
    | .uncorrectable c => contentFits x c
    | _ => true
  onDev s fun d =>
    if !(decide (addr < memBytes x) && fits) then d
    else if powered d then if bit d.bist.memCfg 0 then scrubVisit x (memUnit x addr) f d else d
    else if d.sys.mode == .deep then scrubDeep x f d else d

def execCorrectedRead (x : Fin 132) (addr : Nat) (s : State) : Host.Outcome State Fault Refusal :=
  onLiveIf (decide (addr < memBytes x)) s (correctedRead x (memUnit x addr))

def execUncorrectableAccess (x : Fin 132) (addr : Nat) (a : MemAccess) (s : State) : Host.Outcome State Fault Refusal :=
  onLiveIf (decide (addr < memBytes x) && accessFits x a) s (uncorrectableAccess x (memUnit x addr) a)

def execTrackerWriteBack (x : Fin 132) (addr : Nat) (s : State) : Host.Outcome State Fault Refusal :=
  onLiveIf (decide (addr < memBytes x)) s (trackerWriteBack x (memUnit x addr))

def execSubstitutionComplete (x : Fin 132) (array row : Nat) (s : State) : Host.Outcome State Fault Refusal :=
  onLiveIf (memValid x) s (substDone x array row)

def execPageReloadDone (x : Fin 132) (ok : Bool) (s : State) : Host.Outcome State Fault Refusal :=
  onLiveIf (memValid x) s (pageReload x ok)

def execInsvcPassTimer (s : State) : Host.Outcome State Fault Refusal := onLive s insvcTimer

def execLogicBistEnd (n : Fin 16) (failing : W32) (s : State) : Host.Outcome State Fault Refusal :=
  onLive s (logicEnd n failing)

def execPrivTestStart (i : Fin 4) (s : State) : Host.Outcome State Fault Refusal := onLive s (privStart i)

def execPrivTestEnd (i : Fin 4) (failed : Bool) (src reader : Fin 16) (rows : List (Fin 132 × Fin 8 × Fin 128)) (s : State) :
    Host.Outcome State Fault Refusal :=
  onLiveIf (rows.all sramRow) s (privEnd i failed src reader rows)

end Sys2Proof.Machine
end

