-- ==== Sys2Proof/Machine/Power.lean ====
section
/-! DEFINITION. The device modes REEF and DEEP, the wake from DEEP, PE_WAKE_N and the held pads (R479–R512). -/
namespace Sys2Proof.Machine

/-! ### REEF (R487–R490) -/

/-- Left out of the REEF condition of R31. -/
def unused (p : Port) : Bool := p.link.st == .retired || (p.link.st == .down && fld p.cfg.linkCfg 23 16 == 0)

def reefed (p : Port) : Bool := p.link.st == .reef1 || p.link.st == .reef2

def devIdle (d : Dev) : Bool :=
  (allPorts.all fun n => unused (d.port n) || reefed (d.port n)) && allPorts.any fun n => !unused (d.port n)

/-- The source of a wake that came in the present DT tick (R33). -/
def wakeNow (d : Dev) : Option WakeSrc :=
  match d.sys.wakeAt with
  | some (t, w, _) => if d.dt.running && t == d.dt.dt then some w else none
  | none => none

def latchWake (d : Dev) (w : WakeSrc) : Dev :=
  { d with pwr := match w with
    | .sideband => { d.pwr with wakeSb := true }
    | .pcie => { d.pwr with wakePcie := true }
    | .line n => { d.pwr with wakePort := d.pwr.wakePort ||| portMask n } }

/-- DEV_IDLE_T of idleness; a wake of the same tick goes first, and stays latched (R33). -/
def devIdleExpiry (d : Dev) : Dev :=
  if d.sys.mode == .run && bit d.pwr.cfg 1 && devIdle d && d.avs.deepStep == 0 then
    match wakeNow d with
    | some w => latchWake d w
    | none => devicePoint (enterMode d .reef) 2
  else d

/-- REEF ends, and the sequencer raises CORE to F0. The lane of a port that trains leaves electrical idle now (R30, R259). -/
def leaveReef (d : Dev) : Dev :=
  if d.sys.mode == .reef then
    (devicePoint { d with sys := { d.sys with mode := .run, gateOvr := d.sys.gateOvr + modeOverrides d .run } } 0).eachPort fun d n =>
      let m := (d.port n).lane
      if (d.port n).link.st == .training && (d.lane m).port == some n then wakeLane d m else d
  else d

/-- The first event of R489. -/
def reefExitDevice (c : ReefExitCause) (d : Dev) : Dev :=
  match c with
  | .port | .hostAccess | .fault | .commit => leaveReef d

/-! ### Entry to DEEP (R491, R492) -/

/-- Step 1: each port that is UP or REEF1 starts REEF2 entry by the rule of its mode. -/
def deepPort (d : Dev) (n : Fin 16) : Dev :=
  let p := d.port n
  match p.link.st with
  | .reef1 => startReef2 d n
  | .up =>
    if p.link.mode.gletik then askReef d n 2
    else if bit p.link.stdNow 22 && !p.std.handshake then
      (d.modPort n fun p => { p with std := { p.std with handshake := true } }).emit (.tc10Sleep n)
    else d
  | _ => d

/-- DEEP entry starts; the state of each port at entry is recorded. A wake of the same tick aborts it, and stays latched (R33). -/
def startDeep (d : Dev) (op : Option W16) : Dev :=
  match wakeNow d, op with
  | some w, some h => endOp { latchWake d w with pwr := { (latchWake d w).pwr with aborted := true } } h stAbortedByWake
  | some w, none => { latchWake d w with pwr := { (latchWake d w).pwr with aborted := true } }
  | none, _ =>
    let d := { d with
      sys := { d.sys with portsAt := vmap d.ports fun (p : Port) => p.link.st },
      avs := { d.avs with deepStep := 1, deepOp := op, wakeBy := none } }
    d.eachPort deepPort

def mayDeep (d : Dev) : Bool := trainMode d && d.pwr.wakeEn != 0 && d.avs.deepStep == 0

/-- A wake of the present DT tick has ended REEF (R33). -/
def wokeFromReef (d : Dev) : Bool :=
  match d.sys.wakeAt with
  | some (t, _, reef) => reef && d.dt.running && t == d.dt.dt
  | none => false

/-- The long idle timer, which a wake of the same tick finds expiring though it has ended REEF (R33, R490). -/
def longIdleExpiry (d : Dev) : Dev :=
  if (d.sys.mode == .reef || wokeFromReef d) && fld d.pwr.cfg 31 24 != 0 && mayDeep d then startDeep d none else d

/-- Steps 2 and 3: a port that has not agreed goes quiet without agreement; the point of no return. -/
def pointOfNoReturn (ratio : Nat) (lost : CellarErr) (d : Dev) : Dev :=
  if d.avs.deepStep != 1 then d
  else if !trainMode d then { d with avs := { d.avs with deepStep := 0, deepOp := none } }
  else
    let d := d.eachPort fun d n =>
      match (d.port n).link.st with
      | .up | .reef1 => enterSt (d.modPort n saveSnapshot) n .reef2
      | _ => d
    let op := d.avs.deepOp
    let d := { d with avs := { d.avs with
      deepStep := 2, deepOp := none, deepSent := op.map fun _ => (d.dt.dt, none), rcRatio := ratio, cellar := lost } }
    match op with
    | some h => endOp d h stSuccess
    | none => d

/-- PC_SET of a snapshot. -/
def snapPcSet (p : Port) : BitVec 4 :=
  match p.snap with
  | some b => (readSnap b).pcSet
  | none => 0

/-- A port as it is found after DEEP: its set-up, its snapshot and its mode (R121, R498, R499, R581). -/
def sleepPort (n : Fin 16) (p : Port) : Port :=
  let st : PortSt := match p.link.st with
    | .reef2 => .reef2
    | .retired => .retired
    | _ => .down
  { Port.reset n with
    cfg := { p.cfg with c45Addr := ({} : PortCfg).c45Addr },
    link := { st := st, mode := p.link.mode, laneMode := .none, wanted := p.link.wanted, asleep := p.link.asleep, cfgNow := p.cfg.linkCfg, stdNow := p.cfg.stdCfg },
    train := { pcSet := snapPcSet p },
    std := { mode := p.std.mode, master := p.std.master, eee := p.std.eee, oam := p.std.oam, tc10Sleep := p.std.tc10Sleep },
    diag := { trims := p.diag.trims },
    bist := { startDone := p.bist.startDone },
    shr := { barred := p.shr.barred },
    snap := p.snap, lane := p.lane }

/-- A lane as it is found after DEEP: HL_CFG whole on a lane that no port uses; a port's loopback or pattern ended when the port
left ISOLATED (R261, R499). -/
def sleepLane (m : Fin 20) (l : LaneSt) : LaneSt :=
  { LaneSt.reset m with
    cfg := if l.port.isSome then l.cfg &&& 0xFF1F_FFFF else l.cfg, txeq := l.txeq, rxCfg := l.rxCfg, port := l.port }

/-- The domains power off in DEEP: what the Cellar and domain AON hold stays, everything else is at its Reset column (R480,
R498, R499). A raster with a source other than free-run is to be acquired anew (R287, R291; DEDUCED, assumption 209). -/
def sleepDev (d : Dev) : Dev :=
  { d with
    sys := { mode := .deep, portsAt := d.sys.portsAt, restarts := d.sys.restarts, shrCfg := d.sys.shrCfg, hlSpare := d.sys.hlSpare },
    pins := { d.pins with fsyncOut := false, sbIrqN := true, peWakeN := true },
    clk := {
      cfg := d.clk.cfg, lpllCfg := d.clk.lpllCfg, gateRun := d.clk.gateRun, gateSleep := d.clk.gateSleep,
      gateDeep := d.clk.gateDeep, refAct := primary d },
    pwr := { d.pwr with
      deeps := satInc d.pwr.deeps, pllOn := false, coreOn := false, laneOn := false, pwOn := false,
      padCore := true, padPw := true, padLane := true, padPort := 0xFFFF },
    avs := { d.avs with deepStep := 0, deepSent := none, busy := false, target := none, peWake := false },
    dt := { running := d.dt.running, dt := d.dt.dt, frac := d.dt.frac, coarse := d.dt.coarse, unc := d.dt.unc, cfg := d.dt.cfg },
    raster := {
      st := if effLock d != 0 && d.raster.set then .acquire else .unlocked, lp := d.raster.lpNom, lpNom := d.raster.lpNom, lines := d.raster.lines, first := d.raster.first, last := d.raster.last,
      lockSrc := d.raster.lockSrc, holdFrames := d.raster.holdFrames, anchor := d.raster.anchor, frame0 := d.raster.frame0 },
    hal := { fsyncCfg := d.hal.fsyncCfg, fsyncOfs := d.hal.fsyncOfs, dom := d.hal.dom, calCfg := d.hal.calCfg },
    flt := { cfg := d.flt.cfg, halt := { d.flt.halt with region := none } },
    host := { hquota := d.host.hquota, perst := d.host.perst },
    mbxS := {}, mbxN := {}, acc := {}, cfg := {},
    boot := { d.boot with verified := false, noImage := false },
    ports := Vector.ofFn fun n => sleepPort n (d.port n),
    lanes := Vector.ofFn fun m => sleepLane m (d.lane m),
    mem := vmap d.mem fun m => { repaired := m.repaired },
    bist := { cfg := d.bist.cfg, memCfg := d.bist.memCfg, fusePend := d.bist.fusePend, fused := d.bist.fused },
    age := { cfg := d.age.cfg, calCfg := d.age.calCfg },
    pair := { cfg := d.pair.cfg } }

/-- Step 1 of R494: PLL and CORE get their power, and the primary reference starts. -/
def startWake (d : Dev) : Dev := { d with pwr := { d.pwr with pllOn := true } }

/-- The host has consumed an entry of a completion ring: it lies no further on than the consumer index. -/
def consumed (c : CqRing) (after : W16) : Bool :=
  let back (i : W16) : Nat := (c.prod.toNat + ringDepth c.cfg - i.toNat % ringDepth c.cfg) % ringDepth c.cfg
  c.st == .run && decide (back c.cons ≤ back after)

/-- Step 4 of R491 waits until SLEEP's completion is consumed, or for 1 ms; without a SLEEP there is none to wait for (R354). -/
def awaitConsumed (d : Dev) : Dev :=
  match d.avs.deepSent with
  | none => d
  | some (t, some (f, j, after)) => if consumed ((d.fn f).cq[j.val]) after then d else d.reach (t + BitVec.ofNat 64 (usTicks 1000))
  | some (t, none) => d.reach (t + BitVec.ofNat 64 (usTicks 1000))

/-- Steps 4 and 5 of R491: the functions stop, the domains power off; a wake latched meanwhile starts at once. -/
def deepEntryPowerOff (d : Dev) : Dev :=
  if d.avs.deepStep == 2 && trainMode d then
    let d := awaitConsumed d
    let d := sleepDev (stopFunction (stopFunction d .pf0) .pf1)
    if d.avs.wakeBy.isSome then startWake d else d
  else if d.avs.deepStep == 2 then { d with avs := { d.avs with deepStep := 0, deepSent := none } }
  else d

/-! ### Wakes (R33, R489, R492, R493) -/

/-- A wake that finds the device in RUN or REEF is noted with its tick (R33). -/
def noteWake (d : Dev) (w : WakeSrc) : Dev := { d with sys := { d.sys with wakeAt := some (d.dt.dt, w, d.sys.mode == .reef || wokeFromReef d) } }

def wakeEnabled (d : Dev) : WakeSrc → Bool
  | .sideband => bit d.pwr.wakeEn 16
  | .pcie => bit d.pwr.wakeEn 17
  | .line n => bit d.pwr.wakeEn n.val

/-- A wake that the entry to DEEP, or DEEP, answers: the first one to come is its source. -/
def latchFirst (d : Dev) (w : WakeSrc) : Dev :=
  let d := latchWake d w
  { d with avs := { d.avs with wakeBy := if d.avs.wakeBy.isSome then d.avs.wakeBy else some w } }

/-- An entry to REEF2 that the abort of DEEP withdraws: the port stays in REEF1 (R492). -/
def stayReef1 (d : Dev) (n : Fin 16) : Dev :=
  let d := d.modPort n fun p => { p with
    std := { p.std with handshake := false },
    line := { p.line with reefCancel := p.line.reefCancel || (reefAsked p).isSome, reefStay := (reefPlan p).isSome } }
  if (d.port n).line.reefAt.isSome then cancelReef d n else d

/-- A wake before the point of no return aborts the entry: the ports that entered REEF2 leave it, and what the others have asked for
is withdrawn (R33, R354, R492). -/
def abortDeep (d : Dev) : Dev :=
  let op := d.avs.deepOp
  let d := { d with
    pwr := { d.pwr with aborted := true }, avs := { d.avs with deepStep := 0, deepOp := none } }
  let d := d.eachPort fun d n =>
    match (d.port n).link.st with
    | .reef2 => if d.sys.portsAt[n.val] == .reef2 then d else exitReef d n true
    | .up => wakePort (d.modPort n fun p => { p with std := { p.std with handshake := false } }) n true
    | .reef1 => stayReef1 d n
    | _ => d
  match op with
  | some h => endOp d h stAbortedByWake
  | none => d

/-- An enabled source fires. -/
def wakeFires (d : Dev) (w : WakeSrc) : Dev :=
  if !wakeEnabled d w then d
  else match d.sys.mode with
    | .deep => startWake (latchFirst d w)
    | .run | .reef =>
      if d.avs.deepStep == 1 then leaveReef (abortDeep (latchWake d w))
      else if d.avs.deepStep == 2 then { latchFirst d w with pwr := { (latchFirst d w).pwr with late := true } }
      else leaveReef (noteWake d w)
    | _ => d

/-- The hub's 7-bit address on the sideband: 0b011_1000 + SB_ADDR (R407). -/
def sbAddress (d : Dev) : BitVec 7 := 0x38 + d.boot.strap.sbAddr.zeroExtend 7

/-- The sideband's own address on the bus: a wake source in DEEP, where the matcher acknowledges it and the next byte is refused, and the
address itself once a wake has begun; in REEF an access (R409, R489, R495). In RUN and REEF a transaction is a wake for what comes in
its tick (R33). Any other address, and general call, is not the hub's (R407). -/
def sidebandMatch (addr : BitVec 7) (d : Dev) : Dev :=
  if addr != sbAddress d then d
  else match d.sys.mode with
  | .deep =>
    if d.pwr.coreOn then d
    else if d.pwr.pllOn then d.emit (.sbAck false)
    else wakeFires ((d.emit (.sbAck true)).emit (.sbAck false)) .sideband
  | .run | .reef =>
    if d.avs.deepStep != 0 then wakeFires d .sideband
    else leaveReef (if wakeEnabled d .sideband then noteWake d .sideband else d)
  | _ => d

/-- A line detector has its form by the mode in which the port last ran: in DEEP the tone of a Gletik link, or the TC10 pulse of a
standard one, is a wake source (R135, R230, R493). -/
def lineWake (n : Fin 16) (form : LineMode → Bool) (live : Dev → Dev) (d : Dev) : Dev :=
  if powered d then live d
  else if d.sys.mode == .deep && form (d.port n).link.mode then wakeFires d (.line n)
  else d

/-- PE_WAKE_N is released: 100 ms have passed, or the PCIe link is in L0 (R496). -/
def releasePeWake (d : Dev) : Dev := { d with avs := { d.avs with peWake := false }, pins := { d.pins with peWakeN := true } }

def peWakeTimeout (d : Dev) : Dev := if d.avs.peWake then releasePeWake d else d

def peWakeRelease (d : Dev) : Dev :=
  if d.avs.peWake && !d.host.perst then releasePeWake d else d

/-! ### Pads (R497, R501, R502) -/

/-- A port whose pads have been released trains, if it has waited for that. -/
def padPortFree (d : Dev) (n : Fin 16) : Dev :=
  let held := bit d.pwr.padPort n.val
  let d := { d with pwr := { d.pwr with padPort := setBit d.pwr.padPort n.val false } }
  if !held || !mayTrain d then d
  else match (d.port n).link.st with
    | .reef2 => exitReef d n true
    | .down => if (d.port n).link.wanted then startAttempt d n else d
    | _ => d

/-- A domain's pads can be released: powered, restored, and no RETIRED port's. -/
def padReady (d : Dev) (k : Nat) : Bool :=
  if h : k < 16 then (d.port ⟨k, h⟩).on && (d.port ⟨k, h⟩).link.st != .retired
  else if k == 16 then d.pwr.laneOn
  else if k == 17 then d.pwr.pwOn
  else d.sys.mode != .deep || d.pwr.coreOn

def freePad (d : Dev) (k : Nat) : Dev :=
  if h : k < 16 then padPortFree d ⟨k, h⟩
  else if k == 16 then { d with pwr := { d.pwr with padLane := false } }
  else if k == 17 then { d with pwr := { d.pwr with padPw := false } }
  else { d with pwr := { d.pwr with padCore := false } }

/-- PAD_HOLD.RELEASE. -/
def padRelease (m : Master) (mask : BitVec 19) (d : Dev) : Dev :=
  if !reachesAll m then d
  else if d.clk.coreSrc == 2 then accessError d m 0xC014 true
  else if mask == 0 then d
  else
    let ks := (List.range 19).filter fun k => bit mask k
    let bad := ks.any fun k => !padReady d k
    let d := (ks.filter (padReady d)).foldl freePad d
    { d with pwr := { d.pwr with padErr := bad } }

/-- PWR_STAT (R506). -/
def pwrStat (d : Dev) : W32 :=
  at_ 30 d.avs.freq.toNat ||| atB 29 d.pwr.cellarOk ||| atB 28 d.pwr.fromDeep ||| at_ 20 d.pwr.deeps.toNat |||
  atB 17 d.pwr.pwOn ||| atB 16 d.pwr.laneOn ||| at_ 0 (portsThat d fun p => p.on).toNat

/-- PAD_HOLD_STAT (R507). -/
def padStat (d : Dev) : W32 :=
  atB 31 d.pwr.padErr ||| atB 18 d.pwr.padCore ||| atB 17 d.pwr.padPw ||| atB 16 d.pwr.padLane ||| at_ 0 d.pwr.padPort.toNat

/-- PWR_WAKE_STAT (R505). -/
def wakeStat (d : Dev) : W32 :=
  atB 31 d.pwr.aborted ||| atB 30 d.pwr.late ||| atB 17 d.pwr.wakePcie ||| atB 16 d.pwr.wakeSb ||| at_ 0 d.pwr.wakePort.toNat

/-! ### The rows -/

def execWakeToneDetected (n : Fin 16) (s : State) : Host.Outcome State Fault Refusal :=
  onDev s (lineWake n LineMode.gletik (wakeToneDetected n))

def execTc10WakePulse (n : Fin 16) (s : State) : Host.Outcome State Fault Refusal :=
  onDev s (lineWake n LineMode.std (tc10WakePulse n))

def execPadRelease (m : Master) (mask : BitVec 19) (s : State) : Host.Outcome State Fault Refusal := onLive s (padRelease m mask)
def execDevIdleExpiry (s : State) : Host.Outcome State Fault Refusal := onLive s devIdleExpiry
def execReefExitDevice (c : ReefExitCause) (s : State) : Host.Outcome State Fault Refusal := onLive s (reefExitDevice c)
def execLongIdleExpiry (s : State) : Host.Outcome State Fault Refusal := onLive s longIdleExpiry
def execPointOfNoReturn (ratio : Nat) (lost : CellarErr) (s : State) : Host.Outcome State Fault Refusal :=
  onLive s (pointOfNoReturn ratio lost)
def execDeepEntryPowerOff (s : State) : Host.Outcome State Fault Refusal := onLive s deepEntryPowerOff
def execWakeSourceFire (w : WakeSrc) (s : State) : Host.Outcome State Fault Refusal := onDev s fun d => wakeFires d w
def execSidebandAddressMatch (addr : BitVec 7) (s : State) : Host.Outcome State Fault Refusal := onDev s (sidebandMatch addr)
def execPeWakeTimeout (s : State) : Host.Outcome State Fault Refusal := onDev s peWakeTimeout
def execPeWakeRelease (s : State) : Host.Outcome State Fault Refusal := onDev s peWakeRelease

end Sys2Proof.Machine
end

