-- ==== Sys2Proof/Machine/Reset.lean ====
section
/-! DEFINITION. PORST_N, the privileged device reset, PERST_N and the resets of one function (R31, R328, R329, R396, R400, R417,
R428–R430, R450). -/
namespace Sys2Proof.Machine

/-! ### PORST_N (R429, R430, R450) -/

/-- The block at PORST_N: every register at its Reset column. What stays is outside it, in flash and in OTP; the outputs that have
left it and the model's own counter go on. -/
def porstLow (d : Dev) : Dev :=
  { ({} : Dev) with
    boot := { flash := d.boot.flash, otpSvn := d.boot.otpSvn },
    bist := { fused := d.bist.fused },
    host := { perst := d.host.perst },
    out := d.out, free := d.free }

/-- Trims and fuse repairs as OTP gives them (R552, R584). -/
def loadOtp (d : Dev) : Dev :=
  { d with
    ports := Vector.ofFn fun n => { d.port n with diag := { (d.port n).diag with trims := factoryTrims n } },
    mem := Vector.ofFn fun x => { d.mem[x.val] with repaired := fusedRows d x.val } }

def recTrial (r : BootRec) : FwKind → Bool
  | .mgr => r.mgrTrial
  | .pc => r.pcTrial

/-- A kind on trial in the boot record goes back to its previous slot (R450). -/
def porstRevert (d : Dev) (k : FwKind) : Dev :=
  if recTrial (bootRecord d.boot.flash) k then
    let d := writeRecord d fun r => match k with
      | .mgr => { r with mgrSlot := r.mgrPrev, mgrTrial := false }
      | .pc => { r with pcSlot := r.pcPrev, pcTrial := false }
    { d with boot := { d.boot with reverted := true } }
  else d

/-- PORST_N rises: straps sampled, BOOT entered, the primary reference started (R448 step 1). A board programmer may have
rewritten the flash meanwhile (R429). -/
def porstHigh (straps : Straps) (flash : Option Flash) (d : Dev) : Dev :=
  if d.sys.mode != .off then d
  else
    let fl := flash.getD d.boot.flash
    let svn := if d.boot.otpSvn < Config.svnMin then Config.svnMin else d.boot.otpSvn
    let d := { d with
      sys := { d.sys with mode := .boot },
      pins := { d.pins with porstN := true },
      boot := { d.boot with strap := straps, flash := fl, otpSvn := svn },
      flt := { d.flt with halt := { d.flt.halt with flashValid := fl.summary.isSome } },
      clk := { d.clk with refAct := if straps.refsel then .refclk else .xtal },
      avs := { d.avs with vset := partVset, volt := 150 },
      pwr := { d.pwr with pllOn := true, coreOn := true } }
    porstRevert (porstRevert (loadOtp d) .mgr) .pc

/-! ### The privileged device reset (R417) -/

/-- Every domain except AON at its Reset column; AON, the Cellar's snapshots and the PCIe core, with its MSI-X tables, keep what they
hold, and a filter barred by a privileged test stays so until PORST_N (R561). The pads of the domains that go off latch (R480). -/
def privReset (d : Dev) : Dev :=
  let d := stopFunction (stopFunction d .pf0) .pf1
  loadOtp { ({} : Dev) with
    sys := { mode := .boot, restarts := d.sys.restarts },
    pins := { d.pins with fsyncOut := false, sbIrqN := true, peWakeN := true },
    clk := { priStarted := d.clk.priStarted, gateDeep := d.clk.gateDeep, refAct := primary d },
    pwr := { d.pwr with
      laneOn := false, pwOn := false, coreOn := true, pllOn := true, fromDeep := false,
      padLane := d.pwr.padLane || d.pwr.laneOn, padPw := d.pwr.padPw || d.pwr.pwOn,
      padPort := d.pwr.padPort ||| portsThat d fun p => p.on },
    avs := { d.avs with deepStep := 0, deepOp := none, deepSent := none, busy := false, target := none, peWake := false },
    flt := { halt := { d.flt.halt with pending := false, halted := false, region := none } },
    host := { perst := d.host.perst, pf0 := { msix := d.host.pf0.msix }, pf1 := { msix := d.host.pf1.msix } },
    boot := { d.boot with verified := false, noImage := false, activateOp := none },
    bist := { fused := d.bist.fused },
    ports := Vector.ofFn fun n => { Port.reset n with
      snap := (d.port n).snap, shr := { barred := (d.port n).shr.barred } },
    out := d.out, free := d.free }

/-- GCTL_RESET is written. -/
def privilegedDeviceReset (m : Master) (key : W16) (d : Dev) : Dev :=
  if reachesAll m && key == 0x5A5A then privReset d else d

/-! ### Functions (R328, R329, R396, R400, R447) -/

def Fn.master : Fn → Master
  | .pf0 => .pf0
  | .pf1 => .pf1

/-- The word stream closes, and its half-words are discarded. -/
def closeStream (d : Dev) : Dev :=
  match d.cfg.stream with
  | some _ => { d with cfg := { d.cfg with stream := none, streamLen := 0, streamWords := 0, image := [] } }
  | none => d

/-- A stream whose master stops closes. -/
def closeStreamOf (d : Dev) (m : Master) : Dev :=
  match d.cfg.stream with
  | some (_, who) => if who == m.host then closeStream d else d
  | none => d

/-- A function stops: what R328 names, its locks, and a host-side reset of the mailboxes. -/
def stopHost (d : Dev) (f : Fn) (perst : Bool) : Dev :=
  let d := resumePasses (stopFunction d f)
  closeStreamOf (freeLocksOf (hostReset d (Fn.master f) perst) (Fn.master f)) (Fn.master f)

def functionLevelReset (f : Fn) (d : Dev) : Dev := resetBlock (stopHost d f false) f

/-- The MSI-X table with the function's configuration space (R329). -/
def resetMsix (d : Dev) (f : Fn) : Dev := d.modFn f fun x => { x with msix := Vector.replicate 64 {} }

def perstLow (d : Dev) : Dev :=
  let d := { d with host := { d.host with perst := true } }
  if powered d then resetMsix (resetMsix (stopHost (stopHost d .pf0 true) .pf1 true) .pf0) .pf1 else d

/-- PERST_N rises: in DEEP a PCIe wake (R493). -/
def perstHigh (d : Dev) : Dev := wakeFires { d with host := { d.host with perst := false } } .pcie

/-- A ring of the function is enabled. -/
def anyRing (x : FnSt) : Bool :=
  (vany x.sq fun r => bit r.cfg 31) || (vany x.cq fun r => bit r.cfg 31) || bit x.ev.cfg 31

/-- The link leaves L0 (R514). -/
def linkDown (d : Dev) : Dev := if anyRing d.host.pf0 || anyRing d.host.pf1 then moment d 0x050 else d

/-! ### The rows -/

def execPorstNAssert (s : State) : Host.Outcome State Fault Refusal := onDev s porstLow
def execAonSupplyLoss (s : State) : Host.Outcome State Fault Refusal := onDev s fun d => porstLow d
def execPorstNRelease (straps : Straps) (flash : Option Flash) (s : State) : Host.Outcome State Fault Refusal :=
  onDev s (porstHigh straps flash)
def execPrivilegedDeviceReset (m : Master) (key : W16) (s : State) : Host.Outcome State Fault Refusal :=
  onLive s (privilegedDeviceReset m key)
def execPerstNAssert (s : State) : Host.Outcome State Fault Refusal := onDev s perstLow
def execPerstNRelease (s : State) : Host.Outcome State Fault Refusal := onDev s perstHigh
def execFunctionLevelReset (f : Fn) (s : State) : Host.Outcome State Fault Refusal := onLive s (functionLevelReset f)
def execBusMasterEnableClear (f : Fn) (s : State) : Host.Outcome State Fault Refusal := onLive s fun d => stopHost d f false
def execD3hotEntry (f : Fn) (s : State) : Host.Outcome State Fault Refusal := onLive s fun d => stopHost d f false
def execPcieLinkDown (s : State) : Host.Outcome State Fault Refusal := onLive s linkDown

end Sys2Proof.Machine
end

