-- ==== Sys2Proof/Machine/Regs.lean ====
section
/-! DEFINITION. The set-up space: where an offset lies, which domain it crosses into, and what each register reads (R382–R390,
and the register tables of the chapters). -/
namespace Sys2Proof.Machine

/-! ### The map -/

/-- The block of an offset, with the offset inside it. -/
inductive Place where
  | gctl (o : Nat)
  | mbx (b : Box) (o : Nat)
  | ring (f : Fn) (o : Nat)
  | flt (g : Nat) (o : Nat)
  | fltDev (o : Nat)
  | clk (o : Nat)
  | pwr (o : Nat)
  | hal (o : Nat)
  | wide (o : Nat)
  | lock (o : Nat)
  | cal (o : Nat)
  | calPort (n : Fin 16) (o : Nat)
  | trim (n : Fin 16) (w : Nat)
  | age (o : Nat)
  | bist (o : Nat)
  | memCfg
  | mem (x : Fin 132) (o : Nat)
  | pwl (o : Nat)
  | pt (n : Fin 16) (o : Nat)
  | hl (m : Fin 20) (o : Nat)
  | hlSpare
  | shrCfg
  | shrPort (n : Fin 16) (o : Nat)
  | shrSrc (n s : Fin 16)
  | reserved
  deriving DecidableEq, Repr

def fin16 (k : Nat) : Fin 16 := ⟨k % 16, Nat.mod_lt _ (by decide)⟩

/-- A group of the FLT block (R538). -/
def fltPlace (o : Nat) : Place :=
  if o < 0x8100 then .fltDev (o - 0x8000)
  else if o < 0x8100 + 9 * 0x20 then .flt ((o - 0x8100) / 0x20) (o % 0x20)
  else if 0x8400 ≤ o ∧ o < 0x8600 then .flt (16 + (o - 0x8400) / 0x20) (o % 0x20)
  else if 0x8800 ≤ o ∧ o < 0x8800 + 20 * 0x20 then .flt (32 + (o - 0x8800) / 0x20) (o % 0x20)
  else .reserved

/-- Offsets 0x0000–0x0FFF of the MBX_N block, with its aliases (R381). -/
def mbxNPlace (o : Nat) : Place :=
  if o < 0x100 then .mbx .n o
  else if o < 0x190 then .lock (o - 0x100)
  else if 0x200 ≤ o ∧ o < 0x220 then .wide (o - 0x200)
  else .reserved

/-- The block that an offset of PF0 BAR0 lies in. -/
def place (o : Nat) : Place :=
  if o < 0x1000 then .gctl o
  else if o < 0x2000 then .mbx .s (o - 0x1000)
  else if o < 0x3000 then mbxNPlace (o - 0x2000)
  else if o < 0x4000 then .reserved
  else if o < 0x6000 then .ring .pf0 (o - 0x4000)
  else if o < 0x8000 then .ring .pf1 (o - 0x6000)
  else if o < 0xA000 then fltPlace o
  else if o < 0xC000 then .clk (o - 0xA000)
  else if o < 0xE000 then .pwr (o - 0xC000)
  else if o < 0x10000 then .hal (o - 0xE000)
  else if o < 0x10100 then .wide (o - 0x10000)
  else if o < 0x20000 then .lock (o - 0x10100)
  else if o < 0x20100 then .cal (o - 0x20000)
  else if o < 0x20200 then .calPort (fin16 ((o - 0x20100) / 0x10)) (o % 0x10)
  else if 0x21000 ≤ o ∧ o < 0x21400 then .trim (fin16 ((o - 0x21000) / 0x40)) (o % 0x40 / 4)
  else if 0x28000 ≤ o ∧ o < 0x30000 then .age (o - 0x28000)
  else if 0x30000 ≤ o ∧ o < 0x38000 then .bist (o - 0x30000)
  else if o = 0x38000 then .memCfg
  else if h : 0x39000 ≤ o ∧ o < 0x39000 + 132 * 0x10 then .mem ⟨(o - 0x39000) / 0x10, by omega⟩ (o % 0x10)
  else if 0x80000 ≤ o ∧ o < 0x81000 then .pwl (o - 0x80000)
  else if 0x100000 ≤ o ∧ o < 0x200000 then .pt (fin16 ((o - 0x100000) / 0x10000)) (o % 0x10000)
  else if h : 0x200000 ≤ o ∧ o < 0x250000 then .hl ⟨(o - 0x200000) / 0x4000, by omega⟩ ((o - 0x200000) % 0x4000)
  else if o = 0x250000 then .hlSpare
  else if o = 0x300000 then .shrCfg
  else if 0x300100 ≤ o ∧ o < 0x300200 then .shrPort (fin16 ((o - 0x300100) / 0x10)) (o % 0x10)
  else if 0x301000 ≤ o ∧ o < 0x301400 then .shrSrc (fin16 ((o - 0x301000) / 0x40)) (fin16 (o % 0x40 / 4))
  else .reserved

/-- The domain of a block is powered (R386, R387). -/
def domainOn (d : Dev) : Place → Bool
  | .pwl _ => d.pwr.pwOn
  | .pt n _ | .shrPort n _ | .shrSrc n _ => (d.port n).on
  | .hl m _ => laneDomainOn d m
  | .hlSpare => d.pwr.laneOn
  | _ => true

/-- While CORE runs from the RC oscillator only these blocks answer (R466). -/
def answersOnRc : Place → Bool
  | .gctl _ | .mbx _ _ | .flt _ _ | .fltDev _ | .clk _ => true
  | _ => false

/-- An access reaches the register. -/
def reaches (d : Dev) (p : Place) : Bool := domainOn d p && (d.clk.coreSrc != 2 || answersOnRc p)

/-! ### What the registers read -/

/-- GCTL_ERR (R414). -/
def gctlErr (a : AccSt) : W32 := atB 31 a.rdOff ||| atB 30 a.wrOff ||| atB 29 a.partialWr ||| at_ 26 a.errMaster.toNat

/-- GCTL_STRAP (R412). -/
def strapWord (s : Straps) : W32 :=
  at_ 30 s.xstart.toNat ||| at_ 28 s.bootsrc.toNat ||| atB 27 s.pairrole ||| at_ 24 s.sbAddr.toNat ||| atB 23 s.sbSecure |||
  atB 22 s.refsel

/-- CFG_STAT (R452). -/
def cfgStat (c : CfgSt) : W32 :=
  at_ 30 c.src.toNat ||| atB 29 c.persisted ||| atB 28 c.stream.isSome ||| at_ 16 c.err.toNat ||| at_ 8 c.section_.toNat |||
  at_ 0 c.skipped.toNat

/-- BOOT_STAT (R454). -/
def bootStat (b : BootSt) : W32 :=
  atB 31 b.mgrSlot ||| atB 30 b.pcSlot ||| atB 29 b.mgrTrial ||| atB 28 b.pcTrial ||| atB 27 b.fallback ||| atB 26 b.reverted |||
  at_ 16 b.mgrSvn.toNat ||| at_ 8 b.pcSvn.toNat ||| at_ 0 b.otpSvn.toNat

def readGctl (d : Dev) : Nat → Option W32
  | 0x00 => some (at_ 16 0x1625 ||| at_ 0 Config.vendorId.toNat)
  | 0x04 => some 0x0142_0000
  | 0x08 => some (strapWord d.boot.strap)
  | 0x0C => some (at_ 29 d.sys.mode.code)
  | 0x10 => some (gctlErr d.acc)
  | 0x14 => some d.acc.errAddr
  | 0x18 => some (at_ 24 d.acc.parCount.toNat ||| at_ 0 d.acc.parAddr.toNat)
  | 0x1C => some 0
  | 0x20 => some (cfgStat d.cfg)
  | 0x24 => some d.cfg.imageVer
  | 0x28 => some d.cfg.imageId
  | 0x2C => some (bootStat d.boot)
  | _ => none

/-- MBX_x_STAT (R420). -/
def mbxStat (x : Mbx) : W32 :=
  atB 31 x.h2dFull ||| atB 30 x.d2hFull ||| atB 29 x.overrun ||| atB 28 x.flushed ||| at_ 24 x.h2dEpoch.toNat |||
  at_ 20 x.d2hEpoch.toNat ||| at_ 18 x.wrSrc.toNat ||| at_ 16 x.d2hDst.toNat

def readMbx (d : Dev) (b : Box) : Nat → Option W32
  | 0x0 => some 0
  | 0x4 => some (if (mbx d b).d2hFull then (mbx d b).d2h else 0)
  | 0x8 => some (mbxStat (mbx d b))
  | 0xC => some (at_ 0 (mbx d b).ie.toNat)
  | _ => none

def liveHandles (d : Dev) (f : Fn) : Nat := (d.host.ops.filter fun o => o.fn == f).length

/-- The handles that a function may hold (R342). -/
def quota (d : Dev) (f : Fn) : Nat :=
  match f with
  | .pf1 => fld d.host.hquota 15 0
  | .pf0 => 65535 - fld d.host.hquota 15 0

def sqStat (r : SqRing) : W32 := at_ 30 r.st.code ||| at_ 26 r.cause.toNat ||| at_ 0 r.cons.toNat

def cqStat (d : Dev) (f : Fn) (k : Fin 16) : W32 :=
  let r := (d.fn f).cq[k.val]
  at_ 30 r.st.code ||| atB 29 (ringFull r.cfg r.prod r.cons) |||
  at_ 16 (min (d.host.ops.filter fun o => waitsFor f k o && bit r.cfg 31 && (o.heldBack || !cqRoom r)).length 8191) ||| at_ 0 r.prod.toNat

def evStat (r : EvRing) : W32 := at_ 30 r.st.code ||| at_ 16 r.lost.toNat ||| at_ 0 r.prod.toNat

/-- A word of a 64-bit base (R369). -/
def half (w : W64) (high : Bool) : W32 := if high then BitVec.ofNat 32 (w.toNat / 2 ^ 32) else w.setWidth 32

def readRing (d : Dev) (f : Fn) (o : Nat) : Option W32 :=
  let x := d.fn f
  let k := fin16 (o / 0x10)
  if o < 0x100 then
    match o % 0x10 with
    | 0 => some (half x.sq[k.val].base false)
    | 4 => some (half x.sq[k.val].base true)
    | 8 => some x.sq[k.val].cfg
    | _ => some (sqStat x.sq[k.val])
  else if o < 0x200 then
    match o % 0x10 with
    | 0 => some (half x.cq[k.val].base false)
    | 4 => some (half x.cq[k.val].base true)
    | 8 => some x.cq[k.val].cfg
    | _ => some (cqStat d f k)
  else match o with
    | 0x200 => some (half x.ev.base false)
    | 0x204 => some (half x.ev.base true)
    | 0x208 => some x.ev.cfg
    | 0x20C => some (evStat x.ev)
    | 0x300 => if f == .pf0 then some d.host.hquota else none
    | 0x304 => some (at_ 16 (liveHandles d f) ||| at_ 0 (quota d f - liveHandles d f))
    | 0x308 => some (at_ 16 x.timeouts.toNat ||| at_ 0 x.near.toNat)
    | _ => none

def readFltDev (d : Dev) : Nat → Option W32
  | 0x00 => some (fltSum d.flt)
  | 0x04 => some (firstWord d.flt.first d.flt.firstCount)
  | 0x08 => some d.flt.cfg
  | 0x0C => some (fltHistStat d.flt)
  | 0x10 => some (fltHaltStat d.flt.halt)
  | _ => none

def readFlt (d : Dev) (g o : Nat) : Option W32 :=
  match groupScope g with
  | none => none
  | some s =>
    let x := group d s
    match o with
    | 0x00 => some (x.lat.setWidth 32)
    | 0x04 => some (x.live.setWidth 32)
    | 0x08 => some (x.raised.setWidth 32)
    | 0x0C => some x.lvl
    | 0x10 => some (x.force.setWidth 32)
    | _ => none

/-- CLK_FOFS (R476): an offset that the rules leave open, but 0 when LPLL is LOCKED on the local reference. -/
def clkFofs (d : Dev) : W32 :=
  match d.clk.lpll, d.clk.lpllIn with
  | .locked, some (.ref _) => 0
  | _, _ => Config.freeWord d.free

def readClk (d : Dev) : Nat → Option W32
  | 0x00 => some d.clk.cfg
  | 0x04 => some d.clk.lpllCfg
  | 0x08 => some (clkStat d)
  | 0x0C => some (at_ 0 d.clk.monLive.toNat)
  | 0x10 => some (at_ 0 d.clk.monTrip.toNat)
  | 0x14 => some 0
  | 0x18 => some (clkFofs d)
  | 0x20 => some d.clk.gateRun
  | 0x24 => some d.clk.gateSleep
  | 0x28 => some d.clk.gateDeep
  | _ => none

def readPwr (d : Dev) : Nat → Option W32
  | 0x00 => some d.pwr.cfg
  | 0x04 => some d.pwr.wakeEn
  | 0x08 => some (wakeStat d)
  | 0x0C => some (pwrStat d)
  | 0x10 => some (padStat d)
  | 0x14 => some 0
  | 0x20 => some (atB 31 d.avs.cfgHost ||| at_ 0 d.avs.vset.toNat)
  | 0x24 => some 0
  | 0x28 => some (avsStat d.avs)
  | _ => none

/-- HAL_RASTER_STAT (R317). -/
def rasterStat (d : Dev) : W32 :=
  let r := d.raster
  at_ 29 r.st.code ||| atB 28 (r.set && r.inBlank (r.posAt d.t16).line.toNat) ||| at_ 8 r.steps.toNat ||| at_ 0 r.edgeBad.toNat

def readHal (d : Dev) : Nat → Option W32
  | 0x00 => some d.dt.cfg
  | 0x04 => some (dtStat d)
  | 0x08 => some (BitVec.ofNat 32 (dtUnc d.dt))
  | 0x0C => some (BitVec.ofInt 32 d.dt.adj)
  | 0x10 => some (at_ 16 d.raster.lines.toNat ||| at_ 8 d.raster.holdFrames.toNat ||| at_ 0 d.raster.lockSrc.toNat)
  | 0x14 => some d.raster.lp
  | 0x18 => some (at_ 16 d.raster.first.toNat ||| at_ 0 d.raster.last.toNat)
  | 0x1C => some (rasterStat d)
  | 0x20 => some d.hal.fsyncCfg
  | 0x24 => some d.hal.fsyncOfs
  | 0x28 => some d.hal.dom
  | 0x30 => some d.hal.calCfg
  | 0x34 => some (at_ 16 d.hal.cal.length ||| at_ 8 d.hal.late.toNat ||| at_ 0 d.hal.unblanked.toNat)
  | _ => none

def wideSet (a : AccSt) : Master → WideSet
  | .mgr => a.wideMgr
  | .pf0 => a.widePf0
  | .pf1 => a.widePf1
  | .sb => a.wideSb

/-- WIDE_STAT with the wide read over (R423). -/
def wideStat (w : WideSet) : W32 := atB 31 w.valid ||| atB 29 w.denied ||| atB 28 w.err

/-- BUSY stands in the tick of the WIDE_SEL write: step 2 of R391 takes until the next (assumption 116). A read of a WIDE_D register
stalls until then. -/
def wideBusy (d : Dev) (w : WideSet) : Bool := w.selAt == some d.dt.dt

def readWide (d : Dev) (m : Master) : Nat → Option W32
  | 0x00 => some (wideSet d.acc m).sel
  | 0x04 =>
    let w := wideSet d.acc m
    some (if wideBusy d w then 0x4000_0000 else wideStat w)
  | 0x10 => some (wideSet d.acc m).d[0]
  | 0x14 => some (wideSet d.acc m).d[1]
  | 0x18 => some (wideSet d.acc m).d[2]
  | 0x1C => some (wideSet d.acc m).d[3]
  | _ => none

/-- LOCK_OWN (R426). -/
def lockOwn (a : AccSt) (j : Nat) : W32 :=
  (List.range 8).foldl (fun w i => w ||| at_ (4 * i) (a.locks.toList.getD (8 * j + i) 0).toNat) 0

def readLock (d : Dev) (o : Nat) : Option W32 :=
  if o < 0x80 then some (atB 0 (d.acc.locks.toList.getD (o / 4) 0 != 0))
  else if o < 0x90 then some (lockOwn d.acc ((o - 0x80) / 4))
  else if o = 0x90 then some 0
  else none

def readCal (d : Dev) : Nat → Option W32
  | 0x0 => some d.age.calCfg
  | 0x4 => some (atB 31 d.age.vrefBad ||| atB 30 d.age.rextBad ||| at_ 8 d.age.vrefDev.toNat ||| at_ 0 d.age.rextDev.toNat)
  | _ => none

def readCalPort (p : Port) : Nat → Option W32
  | 0x0 => some p.cfg.diagCfg
  | 0x4 => some p.cfg.planCfg
  | _ => none

/-- CAL_TRIM (R598). -/
def readTrim (p : Port) (w : Nat) : Option W32 :=
  if w ≤ 12 then some ((List.range 4).foldl (fun x i => x ||| at_ (8 * i) (trimOf p.diag.trims (4 * w + i)).toNat) 0) else none

def readAge (d : Dev) : Nat → Option W32
  | 0x0 => some d.age.cfg
  | 0x4 => some (ageStat d)
  | _ => none

/-- BIST_STAT (R564). -/
def bistStat (d : Dev) : W32 :=
  at_ 28 d.bist.privRun.toNat ||| at_ 24 d.bist.privFail.toNat ||| atB 23 (fuseFree d == 0 && !d.bist.fusePend.isEmpty) |||
  at_ 16 (fuseFree d) ||| at_ 8 (min d.bist.fusePend.length 255)

/-- BIST_PORT_STAT (R565). -/
def bistPortStat (b : BistPort) : W32 :=
  atB 31 b.passRun ||| at_ 24 b.slice.toNat ||| atB 23 b.logicFail ||| at_ 20 b.failMem.toNat ||| at_ 16 b.failArray.toNat |||
  at_ 8 b.passes.toNat ||| at_ 0 b.fails.toNat

def readBist (d : Dev) (o : Nat) : Option W32 :=
  if o = 0 then some d.bist.cfg
  else if o = 4 then some (bistStat d)
  else if 0x100 ≤ o ∧ o < 0x140 then some (bistPortStat (d.port (fin16 ((o - 0x100) / 4))).bist)
  else none

/-- MEM_STAT (R567). -/
def memStatWord (x : Fin 132) (m : MemSt) : W32 :=
  at_ 25 (sparesLeft x m) ||| atB 24 m.loss ||| at_ 16 m.hard.toNat ||| at_ 8 m.uncorr.toNat ||| at_ 4 m.track.length |||
  at_ 2 m.lapLate.toNat ||| at_ 0 m.trkOvf.toNat

def readMem (d : Dev) (x : Fin 132) (o : Nat) : Option W32 :=
  if memValid x then
    match o with
    | 0x0 => some (memStatWord x (d.memSt x))
    | 0x4 => some (d.memSt x).corr
    | 0x8 => some (d.memSt x).lap
    | _ => none
  else none

def readPwl (d : Dev) : Nat → Option W32
  | 0x00 => some d.pair.cfg
  | 0x04 => some (pwlStat d)
  | 0x08 => some (pwlMap d)
  | 0x0C => some (pwlTime d)
  | 0x10 => some (pwlCnt d)
  | _ => none

/-- PT_RX_STAT (R177). -/
def rxStat (r : RxSt) : W32 :=
  at_ 30 r.rich.code ||| atB 29 r.held ||| atB 28 r.slow ||| at_ 16 r.reverts.toNat ||| at_ 8 r.fenceHits.toNat ||| at_ 0 r.forced.toNat

/-- PT_ANCHOR_STAT (R178). -/
def anchorStat (d : Dev) (r : RxSt) : W32 :=
  at_ 16 r.anchorMargin.toNat |||
  at_ 0 (if r.anchorMargin == 0x8000 then 0 else min ((d.dt.dt - r.renewAt).toNat / 250000000) 65535)

/-- PT_RTX_STAT (R209). -/
def rtxStat (r : RtxSt) : W32 := at_ 26 r.wAct ||| atB 25 r.reduced ||| at_ 12 (pending r) ||| at_ 0 r.peak.toNat

/-- PT_FRESH_STAT (R212). -/
def freshStat (f : FreshSt) : W32 :=
  at_ 28 f.stale.toNat ||| at_ 24 f.armed.toNat ||| at_ 16 f.skips.toNat ||| at_ 8 f.repeats.toNat ||| at_ 0 f.near.toNat

/-- PT_STD_STAT (R234). -/
def stdStat (s : StdSt) : W32 :=
  at_ 28 s.mode.code ||| atB 27 s.master ||| atB 26 s.eee ||| atB 25 s.oam ||| atB 24 s.lpiRx ||| atB 23 s.lpiTx |||
  atB 22 s.tc10Sleep ||| at_ 20 s.wakeSrc.toNat ||| at_ 0 s.linkFails.toNat

/-- The key of the selected Clause 45 register (R235). -/
def c45Sel (p : Port) : BitVec 21 := p.cfg.c45Addr.setWidth 21

/-- The status registers of Clause 45 that show the link, each with the place of its link bit: status 1 of MMDs 1, 3 and 7, and the PMA,
PCS and auto-negotiation status of 1000BASE-T1 and of the faster modes (places of IEEE 802.3: PRESUMED, assumption 176). -/
def c45Links : List (BitVec 21 × Nat) :=
  [(c45Key 1 1, 2), (c45Key 3 1, 2), (c45Key 7 1, 2), (c45Key 1 2305, 0), (c45Key 1 2310, 0), (c45Key 3 2305, 2), (c45Key 3 2323, 2),
   (c45Key 3 2306, 10), (c45Key 3 2324, 10), (c45Key 7 513, 2)]

/-- The place of the link bit of a status register, if it is one. -/
def c45Status (k : BitVec 21) : Option Nat := (c45Links.find? fun x => x.1 == k).map (·.2)

/-- The type of a BASE-T1 PHY as its control register codes it (PRESUMED, assumption 176). -/
def baseT1Type : LineMode → Nat
  | .t5g => 5 | .t2g5 => 4 | .t1g => 1 | _ => 6

/-- The bits of a Clause 45 register that duplicate fields of PT_STD_CFG, and their values: AN_EN, MS and FORCE_MODE, EEE_ADV and
OAM_EN, at their places of IEEE 802.3 (R236; PRESUMED, assumption 176). -/
def c45Mirror (std : W32) (k : BitVec 21) : W16 × W16 :=
  if k == c45Key 7 512 then (0x1000, BitVec.ofNat 16 (4096 * b2n (bit std 29)))
  else if k == c45Key 1 2100 then
    (0x400F, BitVec.ofNat 16 (16384 * b2n (fld std 31 30 % 2 == 0) + baseT1Type (forceMode std)))
  else if k == c45Key 1 2306 || k == c45Key 1 2311 then
    (0x0003, BitVec.ofNat 16 (b2n (bit std 24 && k == c45Key 1 2311) + 2 * b2n (bit std 23)))
  else (0, 0)

/-- A Clause 45 register: what has been written or received, or else what the rules leave to the standard, with the duplicated fields of
PT_STD_CFG; the link bit of a status register is that of a standard mode's link, and reads as link down otherwise (R236). -/
def c45Value (n : Fin 16) (p : Port) (k : BitVec 21) : W16 :=
  let v := match p.std.c45.find? fun x => x.1 == k with
    | some x => x.2
    | none => Config.clause45 n.val k
  let m := c45Mirror p.cfg.stdCfg k
  let v := (v &&& ~~~m.1) ||| m.2
  match c45Status k with
  | some b => setBit v b (p.link.mode.std && (p.link.st == .up || p.link.st == .reef1))
  | none => v

/-- PT_UPBUF (R279). -/
def upBuf (u : UpBuf) (std : Bool) : W32 := at_ 16 (min u.blocks.length 32768) ||| atB 15 (u.xoff && std) ||| at_ 0 u.drop.toNat

/-- PT_MBQ_STAT (R406). -/
def mbqStat (c : PcSt) : W32 :=
  at_ 28 c.toPc ||| at_ 24 c.toMgr ||| at_ 20 c.epochToPc.toNat ||| at_ 16 c.epochToMgr.toNat ||| at_ 8 c.flushes.toNat |||
  at_ 0 c.overruns.toNat

/-- PT_CAL_STAT (R601). -/
def ptCalStat (g : DiagSt) : W32 :=
  atB 31 g.calRunning ||| at_ 24 (min (calPending g) 127) ||| at_ 16 g.tempLast.toNat ||| at_ 8 g.tempNow.toNat

/-- PT_DIAG_STAT (R603). -/
def ptDiagStat (g : DiagSt) : W32 :=
  at_ 20 g.il.toNat ||| atB 19 g.shield ||| atB 18 g.baseline.isSome ||| at_ 16 g.verdict.toNat ||| at_ 8 g.peaksChg.toNat

def readPt (d : Dev) (n : Fin 16) (o : Nat) : Option W32 :=
  let p := d.port n
  match o with
  | 0x000 => some p.cfg.linkCfg
  | 0x004 => some (ptLinkStat p)
  | 0x008 => some (ptMargin p)
  | 0x00C => some p.cfg.dsCfg
  | 0x010 => some p.link.partner
  | 0x100 => some p.cfg.rxCfg
  | 0x104 => some (rxStat p.rx)
  | 0x108 => some (anchorStat d p.rx)
  | 0x200 => some p.cfg.rtxCfg
  | 0x204 => some (rtxStat p.rtx)
  | 0x208 => some (ptLat d n)
  | 0x210 => some p.cfg.freshCfg
  | 0x214 => some (freshStat p.fresh)
  | 0x220 => some p.fresh.frames[0]
  | 0x224 => some p.fresh.frames[1]
  | 0x228 => some p.fresh.frames[2]
  | 0x22C => some p.fresh.frames[3]
  | 0x300 => some p.cfg.stdCfg
  | 0x304 => some (stdStat p.std)
  | 0x310 => some p.cfg.c45Addr
  | 0x314 => some (atB 31 p.std.c45Err ||| (c45Value n p (c45Sel p)).setWidth 32)
  | 0x400 => some (upBuf p.up ((d.lane p.lane).coding == 2))
  | 0x500 => some p.cfg.rasterCfg
  | 0x504 => some p.cfg.rasterDelay
  | 0x508 => some (at_ 30 p.raster.st.code ||| at_ 8 p.raster.offset.toNat ||| at_ 0 p.raster.sets.toNat)
  | 0x600 => some (mbqStat p.pc)
  | 0x700 => some p.cfg.pwrCfg
  | 0x800 => some (ptCalStat p.diag)
  | 0x804 => some p.diag.calCount
  | 0x808 => some (ptDiagStat p.diag)
  | 0x80C => some (atB 31 p.diag.fcastValid ||| atB 30 p.diag.fcastFalling ||| at_ 0 (ttcNow d.dt.dt p.diag).toNat)
  | 0x810 => some (at_ 24 p.diag.txOfs.toNat ||| at_ 16 p.diag.txTarget.toNat ||| at_ 0 p.diag.upLoss.toNat)
  | _ => none

/-- HL_STAT (R274). -/
def hlStat (d : Dev) (m : Fin 20) : W32 :=
  let l := d.lane m
  let port := match l.port with
    | some n => n.val
    | none => 0x1F
  at_ 30 (txState d m) ||| at_ 27 l.rx.code ||| at_ 22 port ||| at_ 19 l.coding.toNat ||| at_ 17 l.div.toNat ||| atB 16 l.rxInv |||
  atB 15 (groupReversed d m) ||| atB 14 (laneBad d m)

def readHl (d : Dev) (m : Fin 20) (o : Nat) : Option W32 :=
  let l := d.lane m
  match o with
  | 0x00 => some l.cfg
  | 0x04 => some l.txeq
  | 0x08 => some l.rxCfg
  | 0x0C => some (hlStat d m)
  | 0x10 => some (at_ 24 l.eye.toNat ||| at_ 18 l.heye.toNat ||| at_ 14 l.ctle.toNat)
  | 0x14 => some (at_ 24 l.mkBad.toNat ||| at_ 16 l.rpDrop.toNat ||| at_ 0 l.blkLost.toNat)
  | 0x18 => some l.prbsErrs
  | _ => none

/-- Sources with either filter in a state that a test picks. -/
def filtCount (p : Port) (pick : BitVec 3 → Bool) : Nat :=
  (allPorts.filter fun s => pick (filt p s false).st || pick (filt p s true).st).length

/-- SHR_PORT_STAT (R181). -/
def shrPortStat (d : Dev) (n : Fin 16) : W32 :=
  let p := d.port n
  at_ 16 (if sliceOn d n then p.shr.gain.toNat else 0x8000) ||| at_ 12 (filtCount p (· == fIn)) ||| at_ 8 (filtCount p fun s => s == fTrain || s == fWait) |||
  atB 7 p.shr.syncExcl ||| at_ 0 (min ((tLeave d n + 3999) / 4000) 127)

def readShrPort (d : Dev) (n : Fin 16) : Nat → Option W32
  | 0x0 => some (d.port n).cfg.shrPort
  | 0x4 => some (shrPortStat d n)
  | 0x8 => some (BitVec.ofNat 32 (tLeave d n))
  | _ => none

/-- SHR_SRC (R182): the lags that training gives, and an estimate of the coupling that the rules leave open once a filter has
trained. The lag of a filter that holds none reads 0 (DESIGN CHOICE, assumption 200). -/
def shrSrcWord (d : Dev) (n s : Fin 16) : W32 :=
  if n == s then 0
  else
    let ne := filt (d.port n) s false
    let fe := filt (d.port n) s true
    let coupling := if ne.lag.isNone && fe.lag.isNone then 0 else (Config.coupling (16 * n.val + s.val) d.free).toNat
    at_ 29 ne.st.toNat ||| at_ 26 fe.st.toNat ||| at_ 18 ((ne.lag.getD 0).toNat % 256) |||
    at_ 12 ((fe.lag.getD 0) % 64).toNat ||| at_ 4 coupling ||| at_ 0 fe.tag.toNat

/-- What a register reads; none for a reserved offset (R383). -/
def regValue (d : Dev) (m : Master) : Place → Option W32
  | .gctl o => readGctl d o
  | .mbx b o => readMbx d b o
  | .ring f o => readRing d f o
  | .flt g o => readFlt d g o
  | .fltDev o => readFltDev d o
  | .clk o => readClk d o
  | .pwr o => readPwr d o
  | .hal o => readHal d o
  | .wide o => readWide d m o
  | .lock o => readLock d o
  | .cal o => readCal d o
  | .calPort n o => readCalPort (d.port n) o
  | .trim n w => readTrim (d.port n) w
  | .age o => readAge d o
  | .bist o => readBist d o
  | .memCfg => some d.bist.memCfg
  | .mem x o => readMem d x o
  | .pwl o => readPwl d o
  | .pt n o => readPt d n o
  | .hl l o => readHl d l o
  | .hlSpare => some d.sys.hlSpare
  | .shrCfg => some d.sys.shrCfg
  | .shrPort n o => readShrPort d n o
  | .shrSrc n s => some (shrSrcWord d n s)
  | .reserved => none

end Sys2Proof.Machine
end

