-- ==== Sys2Proof/Machine/Wide.lean ====
section
/-! DEFINITION. The wide-read mailbox: classes, copies and selections (R172–R175, R206, R309, R390–R393, R528, R593). -/
namespace Sys2Proof.Machine

/-! ### What the classes return -/

/-- Coefficients packed two to a word (R174). -/
def packCoefs : List W16 → List W32
  | a :: b :: l => (a.setWidth 32 ||| (b.setWidth 32 <<< 16)) :: packCoefs l
  | [a] => [a.setWidth 32]
  | [] => []

def lo (w : W64) : W32 := w.setWidth 32
def hi (w : W64) : W32 := BitVec.ofNat 32 (w.toNat / 2 ^ 32)

/-- A timestamp word set (R309). -/
def stampWords (s : Stamp) : List W32 := [lo s.dt, hi s.dt, at_ 0 s.frac.toNat ||| atB 16 s.coarse]

/-- A raster position with its flag, as class 0x70 gives it (R528). -/
def posWords (p : RPos) : List W32 := [p.frame, at_ 16 p.line.toNat ||| at_ 0 p.phase.toNat, atB 0 p.unavail]

/-- One history entry (R528). -/
def occWords (o : Option Occ) : List W32 :=
  match o with
  | some o => stampWords o.stamp ++
      [atB 31 true ||| atB 30 o.forced ||| at_ 28 o.level.toNat ||| atB 27 o.escalated ||| at_ 16 o.src.toNat] ++
      posWords o.pos ++ [0]
  | none => List.replicate 8 0

/-- Class 0x70: FLT_FIRST and the history. -/
def faultWords (f : FltSt) : List W32 :=
  (match f.first with
    | some o => stampWords o.stamp ++ [firstWord f.first f.firstCount] ++ posWords o.pos ++ [0]
    | none => List.replicate 8 0) ++
  (List.range 16).flatMap fun j => occWords f.hist[j]?

/-- The coefficients of one Shroud filter, all zero where the rules say so (R174). -/
def shroudWords (d : Dev) (n s : Fin 16) (far anchor : Bool) : List W16 :=
  let p := d.port n
  let f := filt p s far
  let q := nearQ (d.port s).link.mode p.link.mode
  let rq := farRQ (d.port s).link.mode p.link.mode
  let len := if far then 12 * rq.1 * rq.2 else q * nearTaps q
  if !sameBundle d n s || f.st == fOut then List.replicate len 0
  else (padInts len (if anchor then f.a else f.c)).map s16

/-- A coefficient block by its class (R173), as the mode's stores hold it. -/
def coefBlock (d : Dev) (n s : Fin 16) (cls : Nat) : List W16 :=
  let p := d.port n
  let live := fitCoefs p.link.mode p.rx.live
  let anchor := fitCoefs p.link.mode p.rx.anchor
  match cls with
  | 0x40 => live.ec.map s16
  | 0x41 => live.ffe.map s16
  | 0x42 => live.dfe.map s16
  | 0x43 => shroudWords d n s false false
  | 0x44 => shroudWords d n s true false
  | 0x48 => anchor.ec.map s16
  | 0x49 => anchor.ffe.map s16
  | 0x4A => anchor.dfe.map s16
  | 0x4B => shroudWords d n s false true
  | 0x4C => shroudWords d n s true true
  | _ => []

def isCoefClass (cls : Nat) : Bool := (0x40 ≤ cls && cls ≤ 0x44) || (0x48 ≤ cls && cls ≤ 0x4C)

/-- The TDR findings of class 0x80 (R593). -/
def tdrWords (g : DiagSt) : List W32 :=
  ((List.range 8).flatMap fun i =>
    match g.tdr[i]? with
    | some f => [at_ 28 f.type.toNat ||| at_ 0 f.cm.toNat, at_ 16 f.reflection.toNat ||| at_ 0 f.step.toNat, 0, 1]
    | none => [0, 0, 0, 0]) ++ stampWords g.tdrAt ++ [0]

/-- Class 0x82. -/
def calWords (g : DiagSt) : List W32 := stampWords g.calLast ++ [g.calCount] ++ posWords g.calLastPos ++ [0]

/-- A whole block that chunk 0 copies; none for a class without a copy. -/
def copyBlock (d : Dev) (cls : Nat) (n s : Fin 16) : Option (List W32) :=
  if isCoefClass cls then some (packCoefs (coefBlock d n s cls))
  else match cls with
    | 0x50 => some ((d.port n).rtx.counters.toList.flatMap fun c => [lo c, hi c])
    | 0x70 => some (faultWords d.flt)
    | 0x80 => some (tdrWords (d.port n).diag)
    | 0x81 => some (packCoefs (d.port n).diag.reflect)
    | 0x82 => some (calWords (d.port n).diag)
    | 0x83 => some (d.age.delta.map (BitVec.ofInt 32))
    | _ => none

/-- The present frame's start, as a timestamp. -/
def frameStamp (d : Dev) : Stamp :=
  let t := d.raster.frameStart d.t16 (d.raster.posAt d.t16).frame
  { dt := tickOf t, frac := BitVec.ofInt 16 (t % 65536), coarse := d.dt.coarse }

/-- Class 0x60 (R309). The raster counts on in every state; where none is set its words are 0. -/
def timeWords (d : Dev) : Nat → List W32
  | 0 => stampWords d.stamp ++ [at_ 0 d.dt.epoch.toNat]
  | 1 => stampWords d.dt.lastPps ++ [BitVec.ofNat 32 (min d.dt.capCount 0xFFFFFFFF)]
  | 2 => stampWords d.dt.lastFsync ++ [at_ 0 d.raster.st.code]
  | 3 =>
    let x := d.raster.posAt d.t16
    [x.frame, at_ 16 x.line.toNat ||| at_ 0 x.phase.toNat, 0, at_ 0 d.raster.st.code]
  | 4 => if d.raster.set then stampWords (frameStamp d) ++ [(d.raster.posAt d.t16).frame] else [0, 0, 0, 0]
  | _ => []

/-- The eight words of a calendar entry (R309). -/
def entryWords (d : Dev) (i : Nat) : List W32 :=
  match d.hal.cal.find? fun e => e.idx == i with
  | some e =>
    let fallback := if onRaster e && d.raster.avail then tickOf (posT16 d.raster d.t16 e) else e.fallback
    [lo e.time, hi e.time, e.arg, at_ 16 e.handle.toNat ||| at_ 0 e.ports.toNat, lo fallback, hi fallback,
      at_ 24 e.action.toNat ||| at_ 21 e.trig.toNat ||| atB 20 true ||| atB 19 e.waiting ||| at_ 0 e.rep.toNat, 0]
  | none => List.replicate 8 0

/-- Class 0x01 (R393). -/
def identWords : Dev → Nat → List W32
  | _, 0 => [lo Config.dieId, hi Config.dieId, Config.otpMapRev, 0]
  | d, 1 => [d.boot.mgrVer, d.boot.pcVer, Config.bootRomVersion, atB 0 d.boot.mgrSlot ||| atB 1 d.boot.pcSlot]
  | _, _ => []

/-! ### A selection (R391, R392) -/

def setWide (a : AccSt) (m : Master) (w : WideSet) : AccSt :=
  match m with
  | .mgr => { a with wideMgr := w }
  | .pf0 => { a with widePf0 := w }
  | .pf1 => { a with widePf1 := w }
  | .sb => { a with wideSb := w }

/-- The classes that some chapter defines. -/
def classDefined (cls : Nat) : Bool :=
  isCoefClass cls || [0x01, 0x50, 0x60, 0x61, 0x62, 0x70, 0x80, 0x81, 0x82, 0x83].contains cls

/-- Classes of a port, which lie in its domain. -/
def classOfPort (cls : Nat) : Bool := isCoefClass cls || [0x50, 0x61, 0x80, 0x81, 0x82].contains cls

/-- A class that a master may select. -/
def classAllowed (d : Dev) (m : Master) (cls : Nat) : Bool := passesP d m || [0x01, 0x50, 0x60, 0x61].contains cls

/-- Four words at a chunk of a block, zero beyond its end. -/
def chunkOf (l : List W32) (c : Nat) : Vector W32 4 := Vector.ofFn fun i => l.getD (4 * c + i.val) 0

/-- What a selection takes: the four words and the copy that the master then holds. -/
def selectWords (d : Dev) (w : WideSet) (sel : W32) : Vector W32 4 × Option W16 × List W32 :=
  let cls := fld sel 31 24
  let n := fin16 (fld sel 23 20)
  let s := fin16 (fld sel 19 16)
  let c := fld sel 15 0
  let key : W16 := BitVec.ofNat 16 (fld sel 31 16)
  match copyBlock d cls n s with
  | some block =>
    if c != 0 && w.copyKey == some key then (chunkOf w.copy c, w.copyKey, w.copy)
    else (chunkOf block c, some key, block)
  | none =>
    match cls with
    | 0x62 =>
      if c % 2 == 1 && w.sel + 1 == sel && w.copyKey == some key then (chunkOf w.copy 1, w.copyKey, w.copy)
      else
        let block := entryWords d (c / 2)
        (chunkOf block (c % 2), some key, block)
    | 0x60 => (chunkOf (timeWords d c) 0, w.copyKey, w.copy)
    | 0x61 =>
      let p := d.port n
      let words := if h : c < 4 then stampWords p.raster.sof[c].1 ++ [p.raster.sof[c].2] else []
      (chunkOf words 0, w.copyKey, w.copy)
    | _ => (chunkOf (identWords d c) 0, w.copyKey, w.copy)

/-- WIDE_SEL is written: the wide read runs to its end. -/
def wideSelWrite (m : Master) (sel : W32) (d : Dev) : Dev :=
  let w := wideSet d.acc m
  let cls := fld sel 31 24
  let now := if d.dt.running then some d.dt.dt else none
  let w' : WideSet :=
    if !classAllowed d m cls then { w with sel := sel, valid := false, denied := true, err := false, d := Vector.replicate 4 0, selAt := now }
    else if !classDefined cls || (classOfPort cls && !(d.port (fin16 (fld sel 23 20))).on) then
      { w with sel := sel, valid := false, denied := false, err := true, d := Vector.replicate 4 0, selAt := now }
    else
      let r := selectWords d w sel
      { sel := sel, valid := true, denied := false, err := false, d := r.1, copyKey := r.2.1, copy := r.2.2, selAt := now }
  { d with acc := setWide d.acc m w' }

/-- A read of WIDE_D3 clears VALID. -/
def wideTaken (m : Master) (d : Dev) : Dev := { d with acc := setWide d.acc m { wideSet d.acc m with valid := false } }

end Sys2Proof.Machine
end

