-- ==== Sys2Proof/Machine/Access.lean ====
section
/-! DEFINITION. Register access by every master: writes, the effects of reads, partial accesses, errors, doorbells and the MSI-X
table, locks, the mailbox words, and the parity of set-up registers (R380–R404, R407, R408). -/
namespace Sys2Proof.Machine

/-! ### Set-up registers (R388, R440) -/

/-- The RW fields of the RING block (R369–R376). -/
def ringFields (f : Fn) (o : Nat) : Option W32 :=
  let base (k : Nat) (cfg : W32) : Option W32 :=
    if k = 0 then some 0xFFFF_F000 else if k = 4 then some 0xFFFF_FFFF else if k = 8 then some cfg else none
  if o < 0x100 then base (o % 0x10) sqMask
  else if o < 0x200 then base (o % 0x10) cqMask
  else if o < 0x210 then base (o - 0x200) evMask
  else if o = 0x300 ∧ f = .pf0 then some 0xFFFF
  else none

/-- The fields of a set-up register that holds an RW field, reserved bits left out; none for any other register. -/
def setupFields : Place → Option W32
  | .fltDev 0x8 => some 7
  | .flt g 0x10 => (groupScope g).map fun _ => 0xFFFF
  | .clk 0x00 => some 0xC0FF_FF00
  | .clk 0x04 => some 0xFC0F_0000
  | .clk 0x20 | .clk 0x24 => some 0x3_FFFF
  | .clk 0x28 => some 1
  | .pwr 0x00 => some 0xFFFF_000E
  | .pwr 0x04 => some 0x3_FFFF
  | .pwr 0x20 => some 0x8000_00FF
  | .hal 0x00 => some 0xFFFF_0007
  | .hal 0x20 => some 0xFFFF_E000
  | .hal 0x24 => some 0xFFFF_FFFF
  | .hal 0x28 => some 0x3FF
  | .hal 0x30 => some 0xFF00_FFFF
  | .cal 0x0 => some 0xFA
  | .calPort _ 0x0 => some 0xFFFF_FCFF
  | .calPort _ 0x4 => some 0xE0FF_F0FF
  | .age 0x0 => some 0xFFFF_FF01
  | .bist 0x0 => some 0xFFFF_000F
  | .memCfg => some 0xFFFF_0003
  | .pwl 0x0 => some 7
  | .pt _ o =>
    match o with
    | 0x000 => some 0x03FF_FFF0
    | 0x00C => some 0xFFFF_FF00
    | 0x100 => some 0xFFFF_FFFC
    | 0x200 => some 0x3F3F_0001
    | 0x210 => some 0x0000_0FF1
    | 0x300 => some 0xFFF0_0000
    | 0x310 => some 0x001F_FFFF
    | 0x314 => some 0x8000_FFFF
    | 0x500 => some 0xC3FF_FF00
    | 0x504 => some 0xFFFF_FFFF
    | 0x700 => some 0xFFFF_FFF1
    | _ => none
  | .hl _ 0x0 => some 0xFFF0_0000
  | .hl _ 0x4 => some 0x0000_FFDF
  | .hl _ 0x8 => some 0xFFFC_0000
  | .hlSpare => some 7
  | .shrCfg => some 0xFF1F_FF03
  | .mbx _ 0xC => some 0x1FF
  | .wide 0x00 => some 0xFFFF_FFFF
  | .ring f o => ringFields f o
  | .shrPort _ 0x0 => some 0xE7
  | _ => none

/-- The value that a set-up register stores of a word written. -/
def stored (p : Place) (v : W32) : W32 := v &&& (setupFields p).getD 0

/-! ### Writes of port registers -/

def modCfg (d : Dev) (n : Fin 16) (f : PortCfg → PortCfg) : Dev := d.modPort n fun p => { p with cfg := f p.cfg }

/-- PT_LINK_CFG: the lane follows, and a port in DOWN starts at once when the write ends a condition of R137, or sets AUTO_START,
and its start rule holds. -/
def writeLinkCfg (d : Dev) (n : Fin 16) (v : W32) : Dev :=
  let old := (d.port n).cfg
  let d := relane (modCfg d n fun c => { c with linkCfg := v }) (d.port n).lane
  let p := d.port n
  let freed := !linkOk old && linkOk p.cfg
  let rises := autoStart p.cfg && !autoStart old && !p.link.backoff
  if autoStart p.cfg && (freed || rises) then startRule d n else d

/-- PT_FRESH_CFG: a guard that is switched off is disarmed, and its source ends. -/
def writeFreshCfg (d : Dev) (n : Fin 16) (v : W32) : Dev :=
  let d := modCfg d n fun c => { c with freshCfg := v }
  let guards (k : Fin 4) : Bool := bit v 0 && bit v (8 + k.val)
  (List.finRange 4).foldl (fun d k =>
    if guards k then d
    else clearStale (d.modPort n fun p => { p with fresh := { p.fresh with armed := setBit p.fresh.armed k.val false } }) n k) d

/-- Bits of a Clause 45 register that a write may not change: resets, low power, what PT_STD_CFG holds, and test modes outside
ISOLATED (R236). Their places are those of IEEE 802.3 (PRESUMED, assumption 176). -/
def c45Guard (std : W32) (k : BitVec 21) (isolated : Bool) : W16 :=
  (c45Mirror std k).1 |||
  if k == c45Key 1 0 || k == c45Key 3 0 || k == c45Key 7 0 then 0x8800
  else if k == c45Key 7 512 then 0x8000
  else if k == c45Key 1 2304 || k == c45Key 1 2309 || k == c45Key 3 2304 || k == c45Key 3 2322 then 0x8800
  else if c45Test k then (if isolated then 0 else 0xE000)
  else 0

/-- The OAM transmit register: with its valid bit written the message in the four registers after it goes out, where OAM is in use, and
the bit clears itself (R236; PRESUMED, assumption 176). -/
def sendStdOam (d : Dev) (n : Fin 16) (k : BitVec 21) : Dev :=
  let p := d.port n
  if k == c45Key 3 2308 && bit (c45Value n p k) 15 && p.std.oam && (p.link.st == .up || p.link.st == .reef1) then
    let msg := (List.range 4).foldl (fun a i => a + (c45Value n p (c45Key 3 (2309 + i))).toNat * 2 ^ (16 * i)) 0
    (d.modPort n fun p => { p with std := { p.std with c45 := c45Put k (setBit (c45Value n p k) 15 false) p.std.c45 } }).emit
      (.stdOam n (BitVec.ofNat 64 msg))
  else d

/-- PT_C45_DATA is written. -/
def writeC45 (d : Dev) (n : Fin 16) (v : W32) : Dev :=
  let p := d.port n
  let k := c45Sel p
  let mmd := k.toNat / 65536
  let new : W16 := v.setWidth 16
  let bad := !(mmd == 1 || mmd == 3 || mmd == 7) ||
    (new ^^^ c45Value n p k) &&& c45Guard p.cfg.stdCfg k (p.link.st == .isolated) != 0
  if bad then d.modPort n fun p => { p with std := { p.std with c45Err := true } }
  else
    let d := d.modPort n fun p => { p with std := { p.std with c45Err := false, c45 := c45Put k new p.std.c45 } }
    let d := if c45Test k && p.link.st == .isolated then d.emit (.pmaTest n (fld (new.setWidth 32) 15 13)) else d
    sendStdOam d n k

/-- PT_RX_CFG: with HOLD set the updates go on in the shadow set, from the values then live (R147). -/
def writeRxCfg (d : Dev) (n : Fin 16) (v : W32) : Dev :=
  let held := rxHolds (d.port n)
  let d := modCfg d n fun c => { c with rxCfg := v }
  let d := if held then d else d.modPort n fun p => { p with rx := { p.rx with shadow := p.rx.live } }
  adaptEntry d n

/-- A write of a register of block PT. PT_RASTER_DELAY is one storage: what DELAY_AUTO = 0 lets a master write stays shown, and in use,
until the next learning (R324; DESIGN CHOICE, assumption 202). -/
def writePt (d : Dev) (n : Fin 16) (o : Nat) (v : W32) : Dev :=
  let v' := stored (.pt n o) v
  match o with
  | 0x000 => writeLinkCfg d n v'
  | 0x00C => modCfg d n fun c => { c with dsCfg := v' }
  | 0x100 => writeRxCfg d n v'
  | 0x200 => modCfg d n fun c => { c with rtxCfg := v' }
  | 0x210 => writeFreshCfg d n v'
  | 0x300 => relane (modCfg d n fun c => { c with stdCfg := v' }) (d.port n).lane
  | 0x310 => modCfg d n fun c => { c with c45Addr := v' }
  | 0x314 => writeC45 d n v
  | 0x500 => modCfg d n fun c => { c with rasterCfg := v' }
  | 0x504 => if bit (d.port n).cfg.rasterCfg 30 then d else modCfg d n fun c => { c with rasterDelay := v' }
  | 0x700 => modCfg d n fun c => { c with pwrCfg := v' }
  | _ => d

/-! ### Writes of the other blocks -/

/-- CLK_CFG (R458, R471). -/
def writeClkCfg (d : Dev) (m : Master) (v : W32) : Dev :=
  let alt := bit d.clk.cfg 30
  let d := modClk d fun c => { c with cfg := setBit (v &&& 0xC0FF_FF00) 30 alt }
  if bit v 30 == alt then d else if bit v 30 then altEnSet m d else altEnClear m d

/-- CLK_CTL (R475). -/
def writeClkCtl (d : Dev) (m : Master) (v : W32) : Dev :=
  let d := if bit v 1 then refPri m d else d
  if bit v 0 then resumeRequest m d else d

def writeClk (d : Dev) (m : Master) (o : Nat) (v : W32) : Dev :=
  match o with
  | 0x00 => writeClkCfg d m v
  | 0x04 => lpllCandidateChange m v d
  | 0x14 => writeClkCtl d m v
  | 0x20 => writeGate d false v
  | 0x24 => writeGate d true v
  | 0x28 => modClk d fun c => { c with gateDeep := v &&& 1 }
  | _ => d

/-- PWR_AVS_REQ (R510). -/
def writeAvsReq (d : Dev) (m : Master) (v : W32) : Dev :=
  match fld v 31 30 with
  | 1 => avsVoltage m (v.setWidth 8) d
  | 2 => avsFrequency m (BitVec.ofNat 2 (fld v 9 8)) d
  | _ => d

def writePwr (d : Dev) (m : Master) (o : Nat) (v : W32) : Dev :=
  match o with
  | 0x00 => { d with pwr := { d.pwr with cfg := stored (.pwr 0) v } }
  | 0x04 => { d with pwr := { d.pwr with wakeEn := stored (.pwr 4) v } }
  | 0x14 => padRelease m (v.setWidth 19) d
  | 0x20 => { d with avs := { d.avs with cfgHost := bit v 31 } }
  | 0x24 => writeAvsReq d m v
  | _ => d

/-- DT_CFG: another source in use loses the lock to the old one, and what corrected DT toward that stops (R283, R311). -/
def writeDtCfg (d : Dev) (v : W32) : Dev :=
  let d' := { d with dt := { d.dt with cfg := stored (.hal 0) v } }
  if srcAct d' == srcAct d then d'
  else dtUnlock { d' with dt := { d'.dt with slew := 0, adj := 0, trim := 0 } }

def writeHal (d : Dev) (o : Nat) (v : W32) : Dev :=
  let h (f : HalSt → HalSt) : Dev := { d with hal := f d.hal }
  match o with
  | 0x00 => writeDtCfg d v
  | 0x20 => h fun x => { x with fsyncCfg := stored (.hal 0x20) v }
  | 0x24 => h fun x => { x with fsyncOfs := v }
  | 0x28 => h fun x => { x with dom := stored (.hal 0x28) v }
  | 0x30 => h fun x => { x with calCfg := stored (.hal 0x30) v }
  | _ => d

def writeHl (d : Dev) (mst : Master) (m : Fin 20) (o : Nat) (v : W32) : Dev :=
  match o with
  | 0x00 => writeHlCfg mst m v d
  | 0x04 => writeTxeq mst m v d
  | 0x08 => d.modLane m fun l => { l with rxCfg := stored (.hl m 8) v }
  | _ => d

/-- SHR_CFG (R179). -/
def writeShrCfg (d : Dev) (v : W32) : Dev :=
  let d := d.eachPort rebaseRamps
  let d := growLeaves (rampWaiting (refilterAll d { d with sys := { d.sys with shrCfg := stored .shrCfg v } }))
  d.eachPort adaptEntry

/-- A 64-bit base with one of its words written (R369). -/
def putHalf (w : W64) (high : Bool) (v : W32) : W64 :=
  let w := if high then (v.setWidth 64 <<< 32) ||| (w &&& 0xFFFF_FFFF) else (w &&& 0xFFFF_FFFF_0000_0000) ||| v.setWidth 64
  w &&& 0xFFFF_FFFF_FFFF_F000

/-- A configuration write of a ring: enable or disable by EN. -/
def ringCfg (d : Dev) (f : Fn) (kind : RingKind) (k : Fin 16) (v : W32) : Dev :=
  if bit v 31 then ringEnable f kind k v d else ringDisable f kind k v d

def writeRing (d : Dev) (f : Fn) (o : Nat) (v : W32) : Dev :=
  let k := fin16 (o / 0x10)
  if o < 0x100 then
    match o % 0x10 with
    | 0 | 4 => modSq d f k fun r => if bit r.cfg 31 then r else { r with base := putHalf r.base (o % 0x10 == 4) v }
    | 8 => ringCfg d f .sq k v
    | _ => d
  else if o < 0x200 then
    match o % 0x10 with
    | 0 | 4 => modCq d f k fun r => if bit r.cfg 31 then r else { r with base := putHalf r.base (o % 0x10 == 4) v }
    | 8 => ringCfg d f .cq k v
    | _ => d
  else match o with
    | 0x200 | 0x204 => modEv d f fun r => if bit r.cfg 31 then r else { r with base := putHalf r.base (o == 0x204) v }
    | 0x208 => ringCfg d f .ev 0 v
    | 0x300 => if f == .pf0 then { d with host := { d.host with hquota := v &&& 0xFFFF } } else d
    | _ => d

/-! ### Locks (R394, R396) -/

def lockOwner (a : AccSt) (i : Fin 32) : BitVec 4 := a.locks[i.val]

def setLock (d : Dev) (i : Fin 32) (o : BitVec 4) : Dev := { d with acc := { d.acc with locks := d.acc.locks.set i.val o i.isLt } }

/-- A read takes a free lock. -/
def takeLock (d : Dev) (m : Master) (i : Fin 32) : Dev :=
  if lockOwner d.acc i == 0 then setLock d i (BitVec.ofNat 4 m.code) else d

def releaseLock (d : Dev) (m : Master) (i : Fin 32) (v : W32) : Dev :=
  if v == 0 && (lockOwner d.acc i).toNat == m.code then setLock d i 0 else d

def freeLocks (d : Dev) (mask : W32) : Dev :=
  (List.finRange 32).foldl (fun d i => if bit mask i.val then setLock d i 0 else d) d

def writeLock (d : Dev) (m : Master) (o : Nat) (v : W32) : Dev :=
  if o < 0x80 then releaseLock d m ⟨o / 4 % 32, Nat.mod_lt _ (by decide)⟩ v
  else if o = 0x90 then (if passesP d m then freeLocks d v else d)
  else d

/-! ### Mailbox words (R398, R399, R404, R421) -/

/-- A host master writes H2D; the manager is its reader. In the tick of a manager restart's flush the word is discarded with it
(R401). -/
def h2dWrite (m : Master) (b : Box) (w : W32) (d : Dev) : Dev :=
  let x := mbx d b
  if m == .mgr then d
  else if x.flushedAt == some d.dt.dt then
    if x.flushed then d
    else condition (setMbx d b { x with flushed := true, wrSrc := if x.h2dFull then x.wrSrc else m.host }) b cFlush m.host
  else setMbx d b <|
    if !x.h2dFull then { x with h2d := w, h2dFull := true, wrSrc := m.host }
    else { x with overrun := true, overrunAt := if x.overrun then x.overrunAt else if d.dt.running then some d.dt.dt else none }

/-- A host master that is the receiver reads D2H: FULL falls. -/
def d2hTaken (m : Master) (b : Box) (d : Dev) : Dev :=
  modMbx d b fun x =>
    if x.d2hFull && m != .mgr && (x.d2hDst == 0 || x.d2hDst == m.host) then
      { x with d2hFull := false, pend := setBit x.pend cD2h false }
    else x

/-- A read of MBX_x_STAT clears OVERRUN and FLUSHED, and for the sideband its pending conditions. -/
def statTaken (m : Master) (b : Box) (d : Dev) : Dev :=
  modMbx d b fun x => { x with
    overrun := false, flushed := false,
    pend := if m == .sb then setBit (setBit x.pend cFlush false) cEmpty false else x.pend }

/-- The bits of MBX_x_IE that are a master's own. -/
def ieMask : Master → BitVec 9
  | .mgr => 0
  | .pf0 => 0b001_001_001
  | .pf1 => 0b010_010_010
  | .sb => 0b100_100_100

/-- MBX_x_IE takes a value; a bit of the sideband's that falls ends its pending condition. -/
def putIe (x : Mbx) (ie : BitVec 9) : Mbx :=
  let stays (i : Nat) : Nat := b2n (bit ie i || !bit x.ie i)
  { x with ie := ie, pend := x.pend &&& BitVec.ofNat 3 (stays 2 + 2 * stays 5 + 4 * stays 8) }

/-- MBX_x_IE is written. -/
def ieWrite (m : Master) (b : Box) (v : W32) (d : Dev) : Dev :=
  modMbx d b fun x => putIe x ((x.ie &&& ~~~(ieMask m)) ||| (v.setWidth 9 &&& ieMask m))

def writeMbx (d : Dev) (m : Master) (b : Box) (o : Nat) (v : W32) : Dev :=
  match o with
  | 0x0 => h2dWrite m b v d
  | 0xC => ieWrite m b v d
  | _ => d

/-! ### One 4-byte access -/

/-- A write that reaches its register. -/
def regWrite (d : Dev) (m : Master) (p : Place) (v : W32) : Dev :=
  match p with
  | .gctl o => if o = 0x1C then privilegedDeviceReset m (v.setWidth 16) d else d
  | .mbx b o => writeMbx d m b o v
  | .ring f o => writeRing d f o v
  | .flt g o => if o = 0x10 then forceWrite m g (v.setWidth 16) d else d
  | .fltDev o => if o = 8 then { d with flt := { d.flt with cfg := stored p v } } else d
  | .clk o => writeClk d m o v
  | .pwr o => writePwr d m o v
  | .hal o => writeHal d o v
  | .wide o => if o = 0 then wideSelWrite m v d else d
  | .lock o => writeLock d m o v
  | .cal o => if o = 0 then { d with age := { d.age with calCfg := stored p v } } else d
  | .calPort n o =>
    match o with
    | 0 => modCfg d n fun c => { c with diagCfg := stored p v }
    | 4 => modCfg d n fun c => { c with planCfg := stored p v }
    | _ => d
  | .trim _ _ => d
  | .age o => if o = 0 then { d with age := { d.age with cfg := stored p v } } else d
  | .bist o => if o = 0 then { d with bist := { d.bist with cfg := stored p v } } else d
  | .memCfg => { d with bist := { d.bist with memCfg := stored p v } }
  | .mem _ _ => d
  | .pwl o => if o = 0 then pairEnable m v d else d
  | .pt n o => writePt d n o v
  | .hl l o => writeHl d m l o v
  | .hlSpare => { d with sys := { d.sys with hlSpare := stored p v } }
  | .shrCfg => writeShrCfg d v
  | .shrPort n o => if o = 0 then writeShrPort d n (stored p v) else d
  | .shrSrc _ _ => d
  | .reserved => d

/-- What a read that has returned does (R13, R236, R384, R391, R394, R399). -/
def readEffect (d : Dev) (m : Master) : Place → Dev
  | .gctl 0x10 => { d with acc := { d.acc with rdOff := false, wrOff := false, partialWr := false } }
  | .mbx b 0x4 => d2hTaken m b d
  | .mbx b 0x8 => statTaken m b d
  | .flt g 0x00 =>
    match groupScope g with
    | some s => (readLat d s).2
    | none => d
  | .clk 0x10 => modClk d fun c => { c with monTrip := c.monTrip &&& c.monLive }
  | .clk 0x18 => { d with free := d.free + 1 }
  | .pwr 0x08 =>
    { d with pwr := { d.pwr with aborted := false, late := false, wakePcie := false, wakeSb := false, wakePort := 0 } }
  | .wide 0x1C => wideTaken m d
  | .pt n 0x314 => d.modPort n fun p => { p with std := { p.std with c45Err := false } }
  | .lock o => if o < 0x80 then takeLock d m ⟨o / 4 % 32, Nat.mod_lt _ (by decide)⟩ else d
  | _ => d

/-- An offset answers: its domain is there, and CORE does not run from the RC oscillator, but for the blocks that answer then, the
aliases of MBX_N among them. -/
def answers (d : Dev) (o : Nat) : Bool :=
  reaches d (place o) || (d.clk.coreSrc == 2 && decide (0x2000 ≤ o) && decide (o < 0x3000))

/-- The write that powers its domain (R271). -/
def isHlCfg : Place → Bool
  | .hl _ 0 => true
  | _ => false

/-- A 4-byte read at an offset of the set-up space; `shown` is the offset that an error records. -/
def readWord (d : Dev) (m : Master) (shown o : Nat) : Option W32 × Dev :=
  match regValue d m (place o) with
  | none => (some 0, d)
  | some v => if answers d o then (some v, readEffect d m (place o)) else (none, accessError d m shown false)

/-- A read that the sideband master ends before the fourth byte: what it returns was sampled with the first, and nothing clears; a
lock, which is no RC register, is taken at the sample (R385, R408). -/
def sampleWord (d : Dev) (m : Master) (shown o : Nat) : Option W32 × Dev :=
  match regValue d m (place o), place o with
  | none, _ => (some 0, d)
  | some v, p =>
    if !answers d o then (none, accessError d m shown false)
    else match p with
      | .lock _ => (some v, readEffect d m p)
      | _ => (some v, d)

/-- A register that waits for its rewrite is written, and its parity bit computed: the mismatch is over (R388). Its source ends
with the last register of the source that waits. -/
def keepApplied (d : Dev) (o : Nat) : Dev :=
  if d.acc.parWait.any fun x => x.1.toNat == o then
    let rest := d.acc.parWait.filter fun x => x.1.toNat != o
    let d := { d with acc := { d.acc with parWait := rest } }
    if rest.any fun x => paritySrc x.1.toNat == paritySrc o then d else setLive d (paritySrc o) false
  else d

/-- A 4-byte write. -/
def writeWord (d : Dev) (m : Master) (shown o : Nat) (v : W32) : Dev :=
  match regValue d m (place o) with
  | none => d
  | some _ =>
    if answers d o || (isHlCfg (place o) && d.clk.coreSrc != 2) then
      keepApplied (regWrite d m (place o) v) o
    else accessError d m shown true

/-! ### Where an access of a master goes (R326, R327, R380, R381, R408) -/

inductive Target where
  | reg (o : Nat)
  | db (f : Fn) (o : Nat)
  | nothing
  | nack
  deriving DecidableEq, Repr

def target (d : Dev) (m : Master) (bar2 : Bool) (o : Nat) : Target :=
  match m with
  | .mgr => .reg o
  | .pf0 => if bar2 then .db .pf0 o else .reg o
  | .pf1 =>
    if bar2 then .db .pf1 o
    else if o < 0x1000 then .reg (0x2000 + o)
    else if 0x4000 ≤ o ∧ o < 0x6000 then .reg (0x2000 + o)
    else .nothing
  | .sb =>
    if o < 0x1000 then .reg (0x2000 + o)
    else if o < 0x2000 ∧ d.boot.strap.sbSecure then .reg o
    else .nack

/-! ### BAR2: doorbells and the MSI-X table (R326, R379) -/

def modMsix (d : Dev) (f : Fn) (i : Fin 64) (g : MsixEntry → MsixEntry) : Dev :=
  d.modFn f fun x => { x with msix := x.msix.set i.val (g x.msix[i.val]) }

/-- A 4-byte write of the MSI-X table. -/
def writeTable (d : Dev) (f : Fn) (o : Nat) (v : W32) : Dev :=
  let i : Fin 64 := ⟨o / 16 % 64, Nat.mod_lt _ (by decide)⟩
  match o % 16 with
  | 0 => modMsix d f i fun e => { e with addr := (e.addr &&& 0xFFFF_FFFF_0000_0000) ||| v.setWidth 64 }
  | 4 => modMsix d f i fun e => { e with addr := (e.addr &&& 0xFFFF_FFFF) ||| (v.setWidth 64 <<< 32) }
  | 8 => modMsix d f i fun e => { e with data := v }
  | _ => if bit v 0 then maskVector f i d else unmaskVector f i d

def readTable (x : FnSt) (o : Nat) : W32 :=
  let e := x.msix.toList.getD (o / 16 % 64) {}
  match o % 16 with
  | 0 => lo e.addr
  | 4 => hi e.addr
  | 8 => e.data
  | _ => atB 0 e.masked

/-- The pending bits of 32 vectors. -/
def readPba (x : FnSt) (w : Nat) : W32 :=
  (List.range 32).foldl (fun a i => a ||| atB i (x.msix.toList.getD (32 * w + i) {}).pending) 0

def writeDb (d : Dev) (f : Fn) (o : Nat) (v : W32) : Dev :=
  let page := o / 0x1000
  let at0 := o % 0x1000
  if page < 16 then
    if at0 = 0 then sqDoorbell f (fin16 page) (v.setWidth 16) d
    else if at0 = 8 then cqDoorbell f (fin16 page) (v.setWidth 16) d
    else d
  else if page = 16 ∧ at0 = 0 then evDoorbell f (v.setWidth 16) d
  else if page = 24 ∧ at0 < 1024 then writeTable d f at0 v
  else d

def readDb (d : Dev) (f : Fn) (o : Nat) : W32 :=
  let page := o / 0x1000
  let at0 := o % 0x1000
  if page = 24 ∧ at0 < 1024 then readTable (d.fn f) at0
  else if page = 25 ∧ at0 < 8 then readPba (d.fn f) (at0 / 4)
  else 0

/-! ### Accesses of any size (R382) -/

/-- The words that an access of some bytes at an offset touches, each with whether it is written whole. -/
def touched (o size : Nat) : List (Nat × Bool) :=
  let first := o / 4 * 4
  let last := (o + size - 1) / 4 * 4
  let one (w : Nat) : Nat × Bool := (w, decide (o ≤ w) && decide (w + 4 ≤ o + size))
  if first == last then [one first] else if first + 4 == last then [one first, one last] else [one first, one (first + 4), one last]

/-- The bytes of a 64-bit value that fall on a word at w, for an access at o. -/
def wordAt (v : W64) (o w : Nat) : W32 := BitVec.ofNat 32 (v.toNat * 2 ^ (8 * (o % 4)) / 2 ^ (8 * (w - o / 4 * 4)))

/-- One word written by a master. A word that a sideband transaction ends within is not written (R408). A partial write to a reserved
offset is ignored as any other write there (R383; DESIGN CHOICE, assumption 206). While CORE runs from the RC oscillator BAR2 does not
answer (R466). -/
def masterWrite (d : Dev) (m : Master) (bar2 : Bool) (w : Nat) (whole : Bool) (v : W32) : Dev :=
  match target d m bar2 w with
  | .nothing => d
  | .nack => d.emit (.errorResponse m)
  | .reg o =>
    let shown := if m == .sb then w else o
    if whole then writeWord d m shown o v
    else if m == .sb then d
    else if (regValue d m (place o)).isSome then { d with acc := { noteError d.acc m shown with partialWr := true } }
    else d
  | .db f o =>
    if d.clk.coreSrc == 2 then accessError d m o true
    else if whole then writeDb d f o v
    else { d with acc := { noteError d.acc m o with partialWr := true } }

def accessWrite (a : Access) (size : Nat) (v : W64) (d : Dev) : Dev :=
  (touched a.offset size).foldl (fun d w => masterWrite d a.master a.bar2 w.1 w.2 (wordAt v a.offset w.1)) d

/-- One word read by a master; none is an error response. -/
def masterRead (d : Dev) (m : Master) (bar2 : Bool) (w : Nat) (whole : Bool) : Option W32 × Dev :=
  match target d m bar2 w with
  | .nothing => (some 0, d)
  | .nack => (none, d.emit (.errorResponse m))
  | .reg o => if m != .sb then readWord d m o o else if whole then readWord d m w o else sampleWord d m w o
  | .db f o => if d.clk.coreSrc == 2 then (none, accessError d m o false) else (some (readDb d f o), d)

/-- The words of a read, gathered as one number from the first word on; none once one has failed. -/
def readWords (m : Master) (bar2 : Bool) : List (Nat × Bool) → Dev → Option Nat × Dev
  | [], d => (some 0, d)
  | w :: ws, d =>
    let (x, d) := masterRead d m bar2 w.1 w.2
    let (rest, d) := readWords m bar2 ws d
    match x, rest with
    | some v, some r => (some (v.toNat + 2 ^ 32 * r), d)
    | _, _ => (none, d)

def accessRead (a : Access) (size : Nat) (d : Dev) : Dev :=
  let (x, d) := readWords a.master a.bar2 (touched a.offset size) d
  match x with
  | some v => d.emit (.readData a.master (BitVec.ofNat 64 (v / 2 ^ (8 * (a.offset % 4)) % 2 ^ (8 * size))))
  | none => d

/-- A master and a size that an access can have (R326, R380, R382). A sideband transaction has any number of bytes (R408); one of more
than 8 is several rows, of 8 bytes each but the last. -/
def accessOk (a : Access) (size : Nat) : Bool :=
  (size == 1 || size == 2 || size == 4 || size == 8 || (a.master == .sb && decide (0 < size ∧ size < 8))) &&
  (!a.bar2 || a.master == .pf0 || a.master == .pf1)

/-- A master's access, of a form that it has. In DEEP one of the sideband meets the matcher alone, which wakes the device and refuses it
(R409). -/
def onRow (ok : Bool) (m : Master) (s : State) (f : Dev → Dev) : Host.Outcome State Fault Refusal :=
  onDev s fun d => if !ok then d else if powered d then f d else if m == .sb then sidebandMatch (sbAddress d) d else d

/-! ### The rows that name one register -/

/-- The offset at which a master reaches a lock or a wide-read register (R380, R381, R390). -/
def aliasOf (m : Master) (own alias_ : Nat) : Nat := if reachesAll m then own else alias_

def lockAt (m : Master) (i : Fin 32) : Nat := aliasOf m 0x10100 0x2100 + 4 * i.val
def wideAt (m : Master) (r : Nat) : Nat := aliasOf m 0x10000 0x2200 + r

/-- The offset of an error as the master knows it. -/
def shownAt (m : Master) (o : Nat) : Nat := if m == .sb then (if o < 0x2000 then o else o - 0x2000) else o

def readRow (m : Master) (o : Nat) (d : Dev) : Dev :=
  match readWord d m (shownAt m o) o with
  | (some v, d) => d.emit (.readData m (v.setWidth 64))
  | (none, d) => d

def writeRow (m : Master) (o : Nat) (v : W32) (d : Dev) : Dev := writeWord d m (shownAt m o) o v

/-- A mailbox that a master does not reach: nothing for PF1, a NACK for the sideband (R380, R408). -/
def boxMissed (m : Master) (d : Dev) : Dev := if m == .sb then d.emit (.errorResponse m) else d

def boxBase : Box → Nat
  | .s => 0x1000
  | .n => 0x2000

def boxWrite (m : Master) (b : Box) (o : Nat) (v : W32) (d : Dev) : Dev :=
  if mbxReach d m b then writeRow m (boxBase b + o) v d else boxMissed m d

def boxRead (m : Master) (b : Box) (o : Nat) (d : Dev) : Dev :=
  if mbxReach d m b then readRow m (boxBase b + o) d else boxMissed m d

/-- The manager, or the ROM in its place, has words for D2H. -/
def boxServed (d : Dev) : Bool := d.sys.mgrUp || d.boot.noImage

/-! ### Parity (R388, R389, R416) -/

/-- A register of a ring comes to store a value, which it does with the ring enabled too. -/
def putRing (d : Dev) (f : Fn) (o : Nat) (v : W32) : Dev :=
  let k := fin16 (o / 0x10)
  let high := o % 0x10 == 4
  if o < 0x100 then
    if o % 0x10 != 8 then modSq d f k fun r => { r with base := putHalf r.base high v }
    else if bit v 31 == bit (d.fn f).sq[k.val].cfg 31 then modSq d f k fun r => { r with cfg := v }
    else ringCfg d f .sq k v
  else if o < 0x200 then
    if o % 0x10 != 8 then modCq d f k fun r => { r with base := putHalf r.base high v }
    else if bit v 31 == bit (d.fn f).cq[k.val].cfg 31 then modCq d f k fun r => { r with cfg := v }
    else ringCfg d f .cq k v
  else if o < 0x208 then modEv d f fun r => { r with base := putHalf r.base high v }
  else if o = 0x208 then
    if bit v 31 == bit (d.fn f).ev.cfg 31 then modEv d f fun r => { r with cfg := v } else ringCfg d f .ev 0 v
  else writeRing d f o v

/-- A register comes to store a value, and acts on it. Of the wide-read sets the manager's stands at the offset of block WIDE
(R390). -/
def putReg (d : Dev) (p : Place) (v : W32) : Dev :=
  match p with
  | .mbx b 0xC => modMbx d b fun x => putIe x (v.setWidth 9)
  | .wide 0x00 => { d with acc := { d.acc with wideMgr := { d.acc.wideMgr with sel := v } } }
  | .ring f o => putRing d f o v
  | p => regWrite d .mgr p v

/-- A mismatch in a set-up register of a powered domain. What its RW fields then hold is not in the rules, and the register acts on it
until the manager rewrites it (R389, assumption 84). -/
def parityMismatch (o : BitVec 22) (d : Dev) : Dev :=
  let p := place o.toNat
  if (setupFields p).isSome && o.toNat % 4 == 0 && domainOn d p then
    let a := d.acc
    let was := stored p ((regValue d .mgr p).getD 0)
    let d := { d with free := d.free + 1, acc := { a with
      parCount := satInc a.parCount, parAddr := if a.parFrozen then a.parAddr else o, parFrozen := true,
      parWait := if a.parWait.any fun x => x.1 == o then a.parWait else a.parWait ++ [(o, was)] } }
    setLive (putReg d p (stored p (BitVec.ofNat 32 (Config.freeNat (d.free - 1))))) (paritySrc o.toNat) true
  else d

/-- The manager rewrites the registers that wait, from the values that were last applied; their sources end. -/
def parityRewrite (d : Dev) : Dev :=
  if d.sys.mgrUp then
    let l := d.acc.parWait
    l.foldl (fun d x => setLive (putReg d (place x.1.toNat) x.2) (paritySrc x.1.toNat) false)
      { d with acc := { d.acc with parWait := [] } }
  else d

/-! ### The rows -/

def execRegisterWrite (a : Access) (size : Nat) (v : W64) (s : State) : Host.Outcome State Fault Refusal :=
  onRow (accessOk a size) a.master s (accessWrite a size v)
def execRcRead (a : Access) (size : Nat) (s : State) : Host.Outcome State Fault Refusal :=
  onRow (accessOk a size) a.master s (accessRead a size)
def execWideSelWrite (m : Master) (sel : W32) (s : State) : Host.Outcome State Fault Refusal :=
  onRow true m s (writeRow m (wideAt m 0) sel)
def execWideD3Read (m : Master) (s : State) : Host.Outcome State Fault Refusal := onRow true m s (readRow m (wideAt m 0x1C))
def execLockRead (m : Master) (i : Fin 32) (s : State) : Host.Outcome State Fault Refusal := onRow true m s (readRow m (lockAt m i))
def execLockRelease (m : Master) (i : Fin 32) (v : W32) (s : State) : Host.Outcome State Fault Refusal :=
  onRow true m s (writeRow m (lockAt m i) v)
def execLockFree (m : Master) (mask : W32) (s : State) : Host.Outcome State Fault Refusal :=
  onLive s fun d => if reachesAll m then writeRow m 0x10190 mask d else d
def execMbxH2dWrite (m : Master) (b : Box) (w : W32) (s : State) : Host.Outcome State Fault Refusal :=
  onRow true m s (boxWrite m b 0 w)
def execMbxD2hRead (m : Master) (b : Box) (s : State) : Host.Outcome State Fault Refusal := onRow true m s (boxRead m b 4)
def execMbxD2hWrite (b : Box) (s : State) : Host.Outcome State Fault Refusal :=
  onLive s fun d => if boxServed d then writeD2h d b else d
def execMbxIeWrite (m : Master) (b : Box) (v : W32) (s : State) : Host.Outcome State Fault Refusal :=
  onRow true m s (boxWrite m b 0xC v)
/-- A sideband transaction that ends within a word writes nothing and clears nothing (R385, R408). -/
def execSidebandAbandon (_write : Bool) (_addr : W16) (s : State) : Host.Outcome State Fault Refusal := onRow true .sb s fun d => d
def execParityMismatch (o : BitVec 22) (s : State) : Host.Outcome State Fault Refusal := onLive s (parityMismatch o)
def execParityRewrite (s : State) : Host.Outcome State Fault Refusal := onLive s parityRewrite

end Sys2Proof.Machine
end

