-- ==== Sys2Proof/Machine/Image.lean ====
section
/-! DEFINITION. The configuration image: its structure, the checks in their order, its application, its write to flash, and the
word stream of the mailboxes (R437–R447). -/
namespace Sys2Proof.Machine

/-! ### Bytes held (R349) -/

/-- The bytes held without a gap from an offset on. -/
def heldFrom : Nat → List (Nat × W8) → List W8
  | _, [] => []
  | k, (o, b) :: rest => if o == k then b :: heldFrom (k + 1) rest else []

/-- Bytes with their offsets. -/
def withOffsets : Nat → List W8 → List (Nat × W8)
  | _, [] => []
  | k, b :: rest => (k, b) :: withOffsets (k + 1) rest

/-- A chunk goes into a buffer at its offset. -/
def putChunk (l : List (Nat × W8)) (offset : Nat) (bytes : List W8) : List (Nat × W8) :=
  (l.filter fun x => decide (x.1 < offset)) ++ withOffsets offset bytes ++
    l.filter fun x => decide (offset + bytes.length ≤ x.1)

/-- k bytes at an offset, as a number. -/
def fieldAt (b : List W8) (offset k : Nat) : Nat := ofLe ((b.drop offset).take k)

/-! ### Validation (R437–R443) -/

/-- A section: TYPE, SFLAGS and payload. -/
structure Section where
  type : Nat
  optional : Bool
  payload : List W8
  deriving DecidableEq, Repr

/-- What is wrong with an image: its error code and section index. -/
structure ImageErr where
  code : W8
  idx : W8
  deriving DecidableEq, Repr

/-- The section index of a failure outside any section. -/
def noSection : W8 := 0xFF

def imageLength (b : List W8) : Nat := fieldAt b 8 4

/-- The header, and the commit word: the code of the first failure. -/
def headerCode (b : List W8) : Option W8 :=
  let len := imageLength b
  if b.length < 4 || fieldAt b 0 4 != 0x4643565A then some 0x01
  else if b.length < 32 || 1048576 < len || b.length < len then some 0x0C
  else if fieldAt b 4 2 != 1 || fieldAt b 6 2 != 32 || len % 4 != 0 || len < 48 || fieldAt b 12 2 == 0 || 255 < fieldAt b 12 2 ||
    fieldAt b 14 2 / 2 != 0 || fieldAt b 19 1 != 0 || fieldAt b 28 4 != 0 then some 0x02
  else if fieldAt b 16 2 != 0x1625 || fieldAt b 18 1 % 2 == 0 then some 0x08
  else
    let word := fieldAt b (len - 4) 4
    if word == 0 || word == 0xFFFFFFFF then some 0x03
    else if word != crc32c (b.take (len - 4)) then some 0x04
    else none

/-- The payload length that a TYPE demands. -/
def payloadOk (type len : Nat) : Bool :=
  match type with
  | 1 => len % 8 == 0
  | 2 => len == 32
  | 3 => len == 8
  | _ => true

/-- k sections, numbered from i, fill the bytes. -/
def sectionsOf : Nat → Nat → List W8 → Except ImageErr (List Section)
  | 0, i, rest => if rest.isEmpty then .ok [] else .error ⟨0x06, BitVec.ofNat 8 (i - 1)⟩
  | k + 1, i, rest =>
    let len := fieldAt rest 4 4
    let payload := (rest.drop 12).take len
    if rest.length < 12 + len || len % 4 != 0 || fieldAt rest 2 2 / 2 != 0 || !payloadOk (fieldAt rest 0 2) len then
      .error ⟨0x06, BitVec.ofNat 8 i⟩
    else if fieldAt rest 8 4 != crc32c payload then .error ⟨0x05, BitVec.ofNat 8 i⟩
    else
      match sectionsOf k (i + 1) (rest.drop (12 + len)) with
      | .ok l => .ok (⟨fieldAt rest 0 2, fieldAt rest 2 2 % 2 == 1, payload⟩ :: l)
      | .error e => .error e

/-- Offsets of RASTER_SET, as R346 numbers them, at which a field is refused (R292). -/
def rasterBad (r : RasterParams) : List Nat :=
  let tooLong := decide (2 ^ 48 < r.lp.toNat * r.lines.toNat)
  (if tooLong then [16] else []) ++ (if r.lines.toNat < 2 then [20] else []) ++ (if r.lines ≤ r.first then [22] else []) ++
  (if r.lines ≤ r.last then [24] else []) ++ if 3 < r.lockSrc.toNat then [26] else []

/-- Bytes 16–39 of a RASTER_SET. -/
def parseRaster (b : List W8) : RasterParams :=
  { lp := BitVec.ofNat 32 (fieldAt b 0 4), lines := BitVec.ofNat 16 (fieldAt b 4 2), first := BitVec.ofNat 16 (fieldAt b 6 2),
    last := BitVec.ofNat 16 (fieldAt b 8 2), lockSrc := BitVec.ofNat 8 (fieldAt b 10 1),
    holdFrames := BitVec.ofNat 8 (fieldAt b 11 1), frame0 := BitVec.ofNat 32 (fieldAt b 12 4),
    anchor := BitVec.ofNat 64 (fieldAt b 16 8) }

/-- The entries of a REGS section: offset and value. -/
def regEntries (payload : List W8) : List (Nat × W32) :=
  (List.range (payload.length / 8)).map fun i => (fieldAt payload (8 * i) 4, BitVec.ofNat 32 (fieldAt payload (8 * i + 4) 4))

/-- The port that a register belongs to. -/
def placePort : Place → Option (Fin 16)
  | .pt n _ | .shrPort n _ | .calPort n _ => some n
  | .flt g _ =>
    match groupScope g with
    | some (.port n) => some n
    | _ => none
  | _ => none

/-- A register of a RETIRED port (R440). -/
def retiredPlace (d : Dev) (p : Place) : Bool :=
  match placePort p with
  | some n => (d.port n).link.st == .retired
  | none => false

/-- The blocks that a REGS entry may not address (R440). -/
def entryBarred : Place → Bool
  | .mbx _ _ | .ring _ _ | .wide _ => true
  | _ => false

/-- What R440 refuses in an entry. -/
def entryCode (d : Dev) (e : Nat × W32) : Option W8 :=
  match setupFields (place e.1) with
  | none => some 0x09
  | some fields =>
    if e.1 % 4 != 0 || entryBarred (place e.1) then some 0x09
    else if retiredPlace d (place e.1) then none
    else if e.2 &&& ~~~fields != 0 then some 0x0A
    else none

/-- The contents of a section. -/
def sectionCode (d : Dev) (s : Section) (again : Bool) : Option W8 :=
  match s.type with
  | 1 => (regEntries s.payload).findSome? (entryCode d)
  | 2 =>
    if again then some 0x07
    else if !(rasterBad (parseRaster s.payload)).isEmpty || fieldAt s.payload 24 8 != 0 then some 0x0B
    else none
  | 3 =>
    if again then some 0x07
    else if 7 < fieldAt s.payload 0 4 || fieldAt s.payload 4 4 != 0 then some 0x0A
    else none
  | 4 => none
  | _ => if s.optional then none else some 0x07

/-- The contents of every section, in order; `seen` holds the TYPEs before it. -/
def contentsCode (d : Dev) : Nat → List Nat → List Section → Option ImageErr
  | _, _, [] => none
  | i, seen, s :: rest =>
    match sectionCode d s (seen.contains s.type) with
    | some c => some ⟨c, BitVec.ofNat 8 i⟩
    | none => contentsCode d (i + 1) (s.type :: seen) rest

/-- An image that passes every check gives its sections (R442). -/
def validate (d : Dev) (b : List W8) : Except ImageErr (List Section) :=
  match headerCode b with
  | some c => .error ⟨c, noSection⟩
  | none =>
    match sectionsOf (fieldAt b 12 2) 0 ((b.take (imageLength b - 4)).drop 32) with
    | .error e => .error e
    | .ok l =>
      match contentsCode d 0 [] l with
      | some e => .error e
      | none => .ok l

/-! ### Application (R442) -/

/-- The domain Pn of every port that is not RETIRED has its power; its pads go with AUTO_RELEASE (R502). -/
def powerPorts (d : Dev) : Dev :=
  d.eachPort fun d n =>
    if (d.port n).link.st == .retired then d
    else
      let held := !bit d.pwr.cfg 2 && bit d.pwr.padPort n.val
      { d.modPort n fun p => { p with on := true } with pwr := { d.pwr with padPort := setBit d.pwr.padPort n.val held } }

/-- One entry of a REGS section, as a write by PF0. -/
def applyEntry (d : Dev) (e : Nat × W32) : Dev :=
  if retiredPlace d (place e.1) then { d with cfg := { d.cfg with skipped := satInc d.cfg.skipped } }
  else regWrite (powerPwOn (powerLaneOn d)) .pf0 (place e.1) e.2

/-- A raster that takes over at its own first frame start; a RASTER_SET that waits is superseded (R292, R348). -/
def queueRaster (d : Dev) (r : RasterParams) (op : Option W16) : Dev :=
  let d := match d.raster.next with
    | some (_, some h) => endOp d h stCancelled
    | _ => d
  { d with raster := { d.raster with next := some (r, op) } }

def applySection (d : Dev) (s : Section) : Dev :=
  match s.type with
  | 1 => (regEntries s.payload).foldl applyEntry d
  | 2 => queueRaster d (parseRaster s.payload) none
  | 3 => pairEnable .pf0 (BitVec.ofNat 32 (fieldAt s.payload 0 4)) (powerPwOn d)
  | _ => d

def applyImage (d : Dev) (l : List Section) : Dev :=
  let d := powerPwOn (powerLaneOn (powerPorts { d with cfg := { d.cfg with skipped := 0 } }))
  idleDomains (l.foldl applySection d)

/-! ### A commit (R443, R444, R446) -/

def srcFlash : BitVec 2 := 1
def srcRing : BitVec 2 := 2
def srcStream : BitVec 2 := 3

/-- The outcome of a validation stands in CFG_STAT; in HOLD, or on the way to it, the notice says so too. -/
def noteImageErr (d : Dev) (e : ImageErr) (notice : Bool) : Dev :=
  let d := { d with cfg := { d.cfg with err := e.code, section_ := e.idx } }
  if notice then postNotice d 0x01 (e.code.toNat * 256 + e.idx.toNat) else d

/-- A valid image is applied, and is then the image in force. -/
def takeImage (d : Dev) (b : List W8) (l : List Section) (src : BitVec 2) : Dev :=
  let d := applyImage d l
  { d with cfg := { d.cfg with
    src := src, persisted := src == srcFlash, err := 0, section_ := noSection,
    imageVer := BitVec.ofNat 32 (fieldAt b (imageLength b - 4) 4), imageId := BitVec.ofNat 32 (fieldAt b 20 4) } }

/-- In RUN, ports in DOWN with AUTO_START start attempts under R90. -/
def startDown (d : Dev) : Dev := d.eachPort fun d n => if (d.port n).link.backoff then d else autoRule d n

/-- The write of an image to flash begins: the region is erased, and holds all but the commit word (R446). -/
def startPersist (d : Dev) (b : List W8) (op : W16) : Dev :=
  let len := imageLength b
  let region := b.take (len - 4) ++ [0xFF, 0xFF, 0xFF, 0xFF]
  { d with
    boot := { d.boot with flash := { d.boot.flash with config := region } },
    cfg := { d.cfg with persistOp := some op, persistWord := BitVec.ofNat 32 (fieldAt b (len - 4) 4) } }.emit (.flashWrite 1)

def persists (b : List W8) : Bool := fieldAt b 14 2 % 2 == 1

/-- The bytes held are validated and applied; the flag says that their write to flash has begun. -/
def commitImage (d : Dev) (b : List W8) (src : BitVec 2) (op : W16) : Dev × Option ImageErr × Bool :=
  match validate d b with
  | .error e => (noteImageErr d e (d.sys.mode == .hold), some e, false)
  | .ok l =>
    let d := takeImage (leaveReef d) b l src
    let d :=
      if d.sys.mode == .hold then enterRun d false fun d => d.eachPort autoRule else startDown d
    if persists b then (startPersist d b op, none, true) else (d, none, false)

/-! ### The flash write ends -/

/-- The read-back of an image written to flash: the commit word follows, or the write has failed. -/
def persistDone (d : Dev) (op : W16) (ok : Bool) : Dev :=
  let w := d.cfg.persistWord
  let d := { d with cfg := { d.cfg with persistOp := none } }
  if ok then
    let f := d.boot.flash
    let d := { d with boot := { d.boot with flash := { f with config := f.config.take (f.config.length - 4) ++ leBytes 4 w.toNat } } }
    let d := { d with cfg := { d.cfg with persisted := d.cfg.persisted || d.cfg.imageVer == w } }
    endOp d op stSuccess 0 0 1
  else
    let d := { d with cfg := { d.cfg with err := 0x0F, section_ := noSection } }
    endOp d op stVerify 0 0x0F 0xFF

/-! ### The word stream (R447) -/

/-- A word of a host mailbox, as R402 divides it. -/
def wordType (w : W32) : Nat := fld w 31 28
def wordTag (w : W32) : Nat := fld w 27 24
def wordArg (w : W32) : Nat := fld w 23 0

/-- The reply to a word. -/
def replyWord (w : W32) (status result : Nat) : W32 :=
  at_ 28 (wordType w) ||| at_ 24 (wordTag w) ||| at_ 20 status ||| at_ 0 result

/-- The word that waits in H2D is read and answered: its device, STATUS and RESULT. -/
def answerWord (d : Dev) (b : Box) (f : Dev → W32 → Dev × Nat × Nat) : Dev :=
  let x := mbx d b
  if x.h2dFull then
    let r := f (takeH2d d b) x.h2d
    postD2h r.1 b (replyWord x.h2d r.2.1 r.2.2) x.wrSrc
  else d

/-- Where the stream is permitted. -/
def streamOk (d : Dev) (b : Box) : Bool :=
  d.sys.mode == .hold || d.sys.mode == .run && b == .s

/-- Another master has the stream. -/
def streamOther (d : Dev) (who : BitVec 2) : Bool :=
  match d.cfg.stream with
  | some (_, m) => m != who
  | none => false

def streamStart (b : Box) (who : BitVec 2) (d : Dev) (w : W32) : Dev × Nat × Nat :=
  let len := fld w 19 0
  if !streamOk d b then (d, 2, 0)
  else if streamOther d who || d.cfg.stream.isNone && !d.cfg.image.isEmpty then (d, 4, 0)
  else if len < 24 || 524288 < len then (d, 1, 0)
  else ({ d with cfg := { d.cfg with stream := some (b, who), streamLen := len, streamWords := 0, image := [] } }, 0, 0)

def streamData (b : Box) (who : BitVec 2) (d : Dev) (w : W32) : Dev × Nat × Nat :=
  let c := d.cfg
  let n := c.streamWords
  if !streamOk d b then (d, 2, 0)
  else if streamOther d who then (d, 4, 0)
  else if c.stream.isSome && n < c.streamLen && fld w 23 16 == n % 256 then
    ({ d with cfg := { c with
      streamWords := n + 1,
      image := c.image ++ [(2 * n, BitVec.ofNat 8 (fld w 7 0)), (2 * n + 1, BitVec.ofNat 8 (fld w 15 8))] } }, 0, n + 1)
  else (d, 0, n)

def streamCommit (b : Box) (who : BitVec 2) (d : Dev) (_ : W32) : Dev × Nat × Nat :=
  let c := d.cfg
  let result (e : ImageErr) : Nat := e.code.toNat * 256 + e.idx.toNat
  if !streamOk d b then (d, 2, 0)
  else if streamOther d who then (d, 4, 0)
  else if c.stream.isNone || c.streamWords < c.streamLen then
    let e : ImageErr := ⟨0x0E, noSection⟩
    (noteImageErr d e (d.sys.mode == .hold), 0, result e)
  else
    let bytes := heldFrom 0 c.image
    let r := commitImage (closeStream d) bytes srcStream 0xFFFF
    (r.1, 0, result (r.2.1.getD ⟨0, noSection⟩))

def streamAbort (b : Box) (who : BitVec 2) (d : Dev) (_ : W32) : Dev × Nat × Nat :=
  if !streamOk d b then (d, 2, 0)
  else if streamOther d who then (d, 4, 0)
  else (closeStream d, 0, 0)

end Sys2Proof.Machine
end

