-- ==== Sys2Proof/Machine/Boot.lean ====
section
/-! DEFINITION. The boot ROM, the end of a boot or of a wake from DEEP, and the requests of the host mailboxes (R31, R32,
R402, R403, R434, R435, R442, R447, R448, R494, R500). -/
namespace Sys2Proof.Machine

/-! ### The ROM (R430, R434, R435, R448 steps 3 and 4, R494 step 5) -/

/-- An image that the ROM accepts. -/
def accepted (d : Dev) (i : Option FwImage) : Bool :=
  match i with
  | some x => x.keyOk && x.sigOk && decide (d.boot.otpSvn ≤ x.svn)
  | none => false

def recSlot (r : BootRec) : FwKind → Bool
  | .mgr => r.mgrSlot
  | .pc => r.pcSlot

/-- The slot that the ROM boots for a kind, and whether it is a fallback; none where no image is acceptable. -/
def bootSlot (d : Dev) (k : FwKind) : Option (Bool × Bool) :=
  let ok (slot : Bool) : Bool := accepted d (fwImage d.boot.flash k slot)
  match d.boot.strap.bootsrc.toNat with
  | 1 => if ok false then some (false, false) else none
  | 2 => if ok true then some (true, false) else none
  | _ =>
    let a := recSlot (bootRecord d.boot.flash) k
    if ok a then some (a, false) else if ok (!a) then some (!a, true) else none

/-- The image of a kind is loaded; the flag says that there is one. -/
def bootKind (d : Dev) (k : FwKind) : Dev × Bool :=
  match bootSlot d k with
  | some (slot, fell) =>
    let trial := recTrial (bootRecord d.boot.flash) k && slot == recSlot (bootRecord d.boot.flash) k
    let b := runSlot d.boot k slot trial
    ({ d with boot := { b with fallback := b.fallback || fell } }, true)
  | none => (d, false)

/-- No acceptable image of a kind: the device stays in BOOT with its notice (R31, R435). -/
def stayInBoot (d : Dev) (kind : Nat) : Dev :=
  postNotice { d with sys := { d.sys with mode := .boot }, boot := { d.boot with noImage := true } } 0x02 (kind * 256)

/-- The PLLs are locked and CORE is there: in BOOT, or in a wake from DEEP. -/
def romReady (d : Dev) : Bool :=
  (d.sys.mode == .boot || (d.sys.mode == .deep && d.pwr.coreOn)) && lpllRuns d.clk && d.clk.hpll == .locked &&
  !d.boot.verified && !d.boot.noImage

def firmwareVerify (d : Dev) : Dev :=
  if !romReady d then d
  else
    let m := bootKind d .mgr
    if !m.2 then stayInBoot d 1
    else
      let p := bootKind m.1 .pc
      if !p.2 then stayInBoot m.1 2
      else { p.1 with boot := { p.1.boot with verified := true } }

/-! ### The end of a boot (R31, R32, R442, R444, R448 steps 5 and 6) -/

/-- The image in flash, as a boot reads it; `none` where it is applied. -/
def flashImage (d : Dev) : Dev × Option ImageErr :=
  if d.boot.strap.bootsrc == 3 then (d, some ⟨0x0D, noSection⟩)
  else
    let b := d.boot.flash.config
    match validate d b with
    | .error e => (d, some e)
    | .ok l => (takeImage d b l srcFlash, none)

/-- SAFE in place of RUN or HOLD, and the dump that a HALT in BOOT has left to write (R32). -/
def bootSafe (d : Dev) (hold : Bool) : Dev :=
  let d := enterMode d .safe
  let d := { d with sys := { d.sys with safeToHold := hold, safeByFence := true } }
  resumeDump d

/-- The manager runs: the image in flash, then RUN, HOLD or SAFE. -/
def bootEnd (d : Dev) (start : Dev → Dev) (wake : Bool) : Dev :=
  let r := flashImage d
  let d := match r.2 with
    | some e => noteImageErr r.1 e true
    | none => r.1
  if devFenced d || d.flt.halt.halted then bootSafe d r.2.isSome
  else if r.2.isSome then enterMode d .hold
  else enterRun d wake start

/-! ### The end of a wake (R34, R494 steps 6 and 7, R500, R502) -/

def autoRelease (d : Dev) : Bool := bit d.pwr.cfg 2

/-- The manager powers and restores Pn, LANE and PW, and releases their pads with AUTO_RELEASE. -/
def restoreDomains (d : Dev) : Dev :=
  let d := idleDomains (powerPwOn (powerLaneOn (powerPorts d)))
  if autoRelease d then { d with pwr := { d.pwr with padCore := false } } else d

/-- Each port that had its link leaves REEF2. -/
def leaveReef2 (d : Dev) : Dev :=
  d.eachPort fun d n => if (d.port n).link.st == .reef2 then exitReef d n true else d

def wakeEnd (d : Dev) : Dev :=
  let d := { d with pwr := { d.pwr with fromDeep := true } }
  let d :=
    if d.avs.cellar.area then bootEnd (restoreDomains d) leaveReef2 true
    else
      let d := enterRun (restoreDomains d) true leaveReef2
      if devFenced d || d.flt.halt.halted then
        resumeDump { enterSafe d with sys := { (enterSafe d).sys with safeByFence := true } }
      else d
  devicePoint d 0

/-- Both images run (R448 step 5, R494 step 6): what was held meanwhile goes on. A boot waits while no clock runs from a
qualified reference (R32). -/
def endOfBoot (d : Dev) : Dev :=
  if !d.boot.verified || d.sys.mgrUp then d
  else
    let up := { d with sys := { d.sys with mgrUp := true } }
    match d.sys.mode with
    | .boot => if !(lpllRuns d.clk && d.clk.hpll == .locked) then d else releaseDoorbells (devicePoint (bootEnd up (fun d => d.eachPort autoRule) false) 0)
    | .deep => releaseDoorbells (wakeEnd up)
    | _ => d

/-! ### Requests (R402, R403, R435) -/

/-- What the ROM answers. -/
def romAnswer (d : Dev) (w : W32) : Dev × Nat × Nat :=
  match wordType w with
  | 1 => (d, 0, Mode.boot.code)
  | 2 | 3 | 4 | 5 | 6 | 12 | 13 => (d, 3, 0)
  | _ => (d, 1, 0)

/-- A request that waits in H2D is served: by the manager, or by the ROM where no firmware runs. -/
def request (b : Box) (mine : W32 → Bool) (f : BitVec 2 → Dev → W32 → Dev × Nat × Nat) (d : Dev) : Dev :=
  let x := mbx d b
  if boxServed d && x.h2dFull && mine x.h2d then answerWord d b (if d.boot.noImage then romAnswer else f x.wrSrc) else d

def isType (t : Nat) (w : W32) : Bool := wordType w == t

/-- A word of TYPE 0xC with an action. -/
def isStream (action : Nat) (w : W32) : Bool := wordType w == 12 && fld w 23 20 == action

def pingWord (_ : BitVec 2) (d : Dev) (_ : W32) : Dev × Nat × Nat := (d, 0, d.sys.mode.code)

/-- RING_STOP. -/
def ringStopWord (b : Box) (who : BitVec 2) (d : Dev) (w : W32) : Dev × Nat × Nat :=
  let f : Fn := if bit w 0 then .pf1 else .pf0
  if b == .n && who != Fn.host f then (d, 2, 0) else (resumePasses (stopFunction d f), 0, 0)

/-- A request that only MBX_S takes. -/
def secureOnly (b : Box) (f : Dev → Dev × Nat × Nat) (d : Dev) : Dev × Nat × Nat := if b == .s then f d else (d, 2, 0)

def faultAckAll (d : Dev) : Dev × Nat × Nat := (ackAll d, 0, min (ackCount d allSources) 0xFFFFF)

def toMaintain (d : Dev) : Dev × Nat × Nat := if d.sys.mode == .run then (enterMode d .maintain, 0, 0) else (d, 3, 0)

/-- The end of MAINTAIN waits for the privileged tests and for FW_ACTIVATE. -/
def fromMaintain (d : Dev) : Dev × Nat × Nat :=
  if d.sys.mode != .maintain then (d, 3, 0)
  else if d.bist.privOp.isSome || d.bist.privRun != 0 || d.boot.activateOp.isSome then (d, 4, 0)
  else (endMaintain d, 0, 0)

def resumeWord (d : Dev) : Dev × Nat × Nat := (resumeClock d, 0, (resumeClock d).sys.mode.code)

/-- TYPEs that R403 reserves, and actions that R447 does not give. -/
def isReserved (w : W32) : Bool :=
  match wordType w with
  | 1 | 2 | 3 | 4 | 5 | 6 | 13 => false
  | 12 => decide (2 < fld w 23 20)
  | _ => true

/-! ### The rows -/

def execFirmwareVerify (s : State) : Host.Outcome State Fault Refusal := onLive s firmwareVerify
def execEndOfBoot (s : State) : Host.Outcome State Fault Refusal := onLive s endOfBoot
def execPing (b : Box) (s : State) : Host.Outcome State Fault Refusal := onLive s (request b (isType 1) pingWord)
def execRingStop (b : Box) (s : State) : Host.Outcome State Fault Refusal := onLive s (request b (isType 2) (ringStopWord b))
def execMbxFaultAck (b : Box) (s : State) : Host.Outcome State Fault Refusal :=
  onLive s (request b (isType 3) fun _ d _ => secureOnly b faultAckAll d)
def execMaintainEntry (b : Box) (s : State) : Host.Outcome State Fault Refusal :=
  onLive s (request b (isType 4) fun _ d _ => secureOnly b toMaintain d)
def execMaintainEnd (b : Box) (s : State) : Host.Outcome State Fault Refusal :=
  onLive s (request b (isType 5) fun _ d _ => secureOnly b fromMaintain d)
def execSafeResume (b : Box) (s : State) : Host.Outcome State Fault Refusal :=
  onLive s (request b (isType 6) fun _ d _ => secureOnly b resumeWord d)
def execConfigStreamStart (b : Box) (s : State) : Host.Outcome State Fault Refusal :=
  onLive s (request b (isStream 0) (streamStart b))
def execConfigStreamData (b : Box) (s : State) : Host.Outcome State Fault Refusal :=
  onLive s (request b (isType 13) (streamData b))
def execConfigStreamCommit (b : Box) (s : State) : Host.Outcome State Fault Refusal :=
  onLive s (request b (isStream 1) (streamCommit b))
def execConfigStreamAbort (b : Box) (s : State) : Host.Outcome State Fault Refusal :=
  onLive s (request b (isStream 2) (streamAbort b))
def execConfigStreamTimeout (s : State) : Host.Outcome State Fault Refusal := onLive s closeStream
def execReservedMailboxType (b : Box) (s : State) : Host.Outcome State Fault Refusal :=
  onLive s (request b isReserved fun _ d _ => (d, 1, 0))

end Sys2Proof.Machine
end

