-- ==== Sys2Proof/Machine/Operands.lean ====
section
/-! DEFINITION. The operand forms of the commands: the parameters of a submission entry, which bytes each opcode uses, what is
out of range, and what a function may ask for (R337, R346, R347). -/
namespace Sys2Proof.Machine

/-! ### The entry (R337, R346) -/

/-- k bytes of an entry from an offset, little-endian. -/
def entryFld (e : BitVec 512) (offset k : Nat) : Nat := e.toNat / 2 ^ (8 * offset) % 2 ^ (8 * k)

def b8 (e : BitVec 512) (o : Nat) : W8 := BitVec.ofNat 8 (entryFld e o 1)
def b16 (e : BitVec 512) (o : Nat) : W16 := BitVec.ofNat 16 (entryFld e o 2)
def b32 (e : BitVec 512) (o : Nat) : W32 := BitVec.ofNat 32 (entryFld e o 4)
def b64 (e : BitVec 512) (o : Nat) : W64 := BitVec.ofNat 64 (entryFld e o 8)

/-- Bytes 20–63 of an OAM_SEND, the first byte on the line in the highest place. -/
def oamPayload (e : BitVec 512) : BitVec 352 :=
  BitVec.ofNat 352 ((List.range 44).foldl (fun a i => 256 * a + entryFld e (20 + i) 1) 0)

/-- RASTER_SET's fields. -/
def entryRaster (e : BitVec 512) : RasterParams :=
  { lp := b32 e 16, lines := b16 e 20, first := b16 e 22, last := b16 e 24, lockSrc := b8 e 26, holdFrames := b8 e 27,
    frame0 := b32 e 28, anchor := b64 e 32 }

/-- The command of an entry; none for a reserved opcode. -/
def entryCmd (e : BitVec 512) : Option Cmd :=
  match entryFld e 0 1 with
  | 0x00 => some (.nop (b32 e 16))
  | 0x10 => some (.portConfig (b8 e 16) (b16 e 18) (Vector.ofFn fun i : Fin 8 => b32 e (20 + 4 * i.val)))
  | 0x11 => some (.portUp (b8 e 16))
  | 0x12 => some (.portDown (b8 e 16))
  | 0x13 => some (.portIsolate (b8 e 16))
  | 0x14 => some (.portStatus (b8 e 16))
  | 0x15 => some (.oamSend (b8 e 16) (b8 e 17) (b8 e 18) (oamPayload e))
  | 0x20 => some (.diagTdr (b8 e 16))
  | 0x21 => some (.diagSignature (b8 e 16) (b8 e 17) (b64 e 24))
  | 0x22 => some (.capture (b8 e 16) (b8 e 17) (b8 e 18) (b32 e 20) (b64 e 24))
  | 0x23 => some (.calRun (b16 e 16))
  | 0x24 => some (.bistRun (b8 e 16) (b16 e 18) (b32 e 20))
  | 0x30 => some (.schedule (b8 e 16) (b8 e 17) (b16 e 18) (b16 e 20) (b64 e 24) (b32 e 32))
  | 0x31 => some (.cancel (b16 e 16))
  | 0x40 => some (.laneSpare (b8 e 16) (b8 e 17))
  | 0x50 => some (.configLoad (b32 e 16) (b32 e 20) (b64 e 24))
  | 0x51 => some .configCommit
  | 0x58 => some (.fwStage (b8 e 16) (b8 e 17) (b32 e 20) (b32 e 24) (b64 e 32))
  | 0x59 => some (.fwActivate (b8 e 16))
  | 0x60 => some (.timeSet (b8 e 16) (b64 e 24) (b64 e 32))
  | 0x61 => some (.rasterSet (entryRaster e))
  | 0x70 => some (.faultAck (b16 e 16))
  | 0x71 => some (.faultForce (b16 e 16) (b8 e 18))
  | 0x78 => some (.countersRead (b8 e 16) (b8 e 17) (b64 e 24))
  | 0x79 => some (.atticSetup (b8 e 16) (b8 e 17) (b16 e 18) (b64 e 24))
  | 0x7A => some (.dumpSetup (b32 e 16) (b64 e 24))
  | 0x7C => some (.sleep (b8 e 16))
  | _ => none

/-- Parameter bytes that a command uses: first and last. -/
def usedBytes : Cmd → List (Nat × Nat)
  | .nop _ => [(16, 19)]
  | .portConfig .. => [(16, 16), (18, 51)]
  | .portUp _ | .portDown _ | .portIsolate _ | .portStatus _ | .diagTdr _ => [(16, 16)]
  | .oamSend .. => [(16, 18), (20, 63)]
  | .diagSignature .. => [(16, 17), (24, 31)]
  | .capture .. => [(16, 18), (20, 31)]
  | .calRun _ => [(16, 17)]
  | .bistRun .. => [(16, 16), (18, 23)]
  | .schedule .. => [(16, 21), (24, 35)]
  | .cancel _ => [(16, 17)]
  | .laneSpare .. => [(16, 17)]
  | .configLoad .. => [(16, 31)]
  | .configCommit => []
  | .fwStage .. => [(16, 17), (20, 27), (32, 39)]
  | .fwActivate _ => [(16, 16)]
  | .timeSet .. => [(16, 16), (24, 39)]
  | .rasterSet _ => [(16, 39)]
  | .faultAck _ => [(16, 17)]
  | .faultForce .. => [(16, 18)]
  | .countersRead .. => [(16, 17), (24, 31)]
  | .atticSetup .. => [(16, 19), (24, 31)]
  | .dumpSetup .. => [(16, 19), (24, 31)]
  | .sleep _ => [(16, 16)]

/-- Reserved bytes that are not 0, in order; the flags byte counts when a reserved flag is set. -/
def reservedBad (e : BitVec 512) (c : Cmd) : List Nat :=
  (if 1 < entryFld e 1 1 then [1] else []) ++ ([4, 5, 6, 7].filter fun k => entryFld e k 1 != 0) ++
  (((List.range 48).map (· + 16)).filter fun k =>
    entryFld e k 1 != 0 && !((usedBytes c).any fun r => decide (r.1 ≤ k) && decide (k ≤ r.2)))

/-! ### Ranges (R346, R347) -/

/-- Offset o is bad when a test fails. -/
def badIf (o : Nat) (bad : Bool) : List Nat := if bad then [o] else []

/-- A port number outside 0–15, or of a RETIRED port. -/
def portBad (d : Dev) (p : W8) : Bool :=
  match portOf p with
  | some n => (d.port n).link.st == .retired
  | none => true

/-- A mask that names a RETIRED port. -/
def maskBad (d : Dev) (m : W16) : Bool := (maskPorts m).any fun n => (d.port n).link.st == .retired

/-- A host address: a multiple of 64 B, its buffer within one region of 4 GiB. -/
def addrBad (a : W64) (len : Nat) : Bool := a.toNat % 64 != 0 || decide (2 ^ 32 < a.toNat % 2 ^ 32 + len)

def pageBad (a : W64) : Bool := a.toNat % 4096 != 0

/-- ARG forms of R303. -/
def argBad (action : W8) (arg : W32) : Bool :=
  match action.toNat with
  | 1 | 5 => arg != 0
  | 4 => !(arg == 1 || arg == 2)
  | 6 => fld arg 30 24 != 0
  | 8 => fld arg 31 16 != 0
  | _ => false

/-- The actions a host may schedule, and those that only the device places. -/
def hostAction (a : W8) : Bool := [1, 4, 5, 6, 8, 9].contains a.toNat
def deviceAction (a : W8) : Bool := [2, 3, 7].contains a.toNat

/-- TESTS bits that a target has (R559–R561). -/
def testsMask (target : W8) : W32 := if target == 0 then 0x1F else if target == 1 then 3 else 0xF

/-- A kept capture matches C (R284). -/
def captureMatches (d : Dev) (c : W64) : Bool := d.dt.caps.any fun x => x == c || x == c + 1 || x == c - 1

/-- The flash, by first and last byte: a firmware slot, and the image of the configuration (R432). -/
def slotRange (manager slotB : Bool) : Nat × Nat :=
  match manager, slotB with
  | true, false => (0x1_0000, 0xF_FFFF)
  | false, false => (0x10_0000, 0x13_FFFF)
  | true, true => (0x14_0000, 0x22_FFFF)
  | false, true => (0x23_0000, 0x26_FFFF)

/-- A chunk that a slot does not hold: the device writes no other region for it. The rules give no STATUS for it; the model refuses OFFSET
(DESIGN CHOICE, assumption 212). -/
def beyondSlot (i : W8) (offset len : Nat) : Bool :=
  let r := slotRange (i == 0) true
  decide (r.2 + 1 < r.1 + offset + len)

/-- The offsets at which a command is out of range. -/
def paramBad (d : Dev) : Cmd → List Nat
  | .nop _ => []
  | .portConfig p v _ => badIf 16 (portBad d p) ++ badIf 19 (decide (255 < v.toNat))
  | .portUp p | .portDown p | .portIsolate p | .portStatus p | .diagTdr p => badIf 16 (portBad d p)
  | .oamSend p t len _ =>
    badIf 16 (portBad d p) ++
    badIf 17 (!(t == 1 || t == 2 || (decide (0x10 ≤ t.toNat) && decide (t.toNat ≤ 0x3F)))) ++ badIf 18 (decide (44 < len.toNat))
  | .diagSignature p op a => badIf 16 (portBad d p) ++ badIf 17 (decide (1 < op.toNat)) ++ badIf 24 (addrBad a 4096)
  | .capture p s st len a =>
    badIf 16 (portBad d p) ++ badIf 17 (decide (3 < s.toNat)) ++ badIf 18 (decide (1 < st.toNat)) ++
    badIf 20 (len.toNat % 4096 != 0 || decide (16777216 < len.toNat)) ++ badIf 24 (addrBad a len.toNat)
  | .calRun m => badIf 16 (maskBad d m)
  | .bistRun t m x =>
    badIf 16 (decide (2 < t.toNat)) ++ badIf 18 (maskBad d m) ++ badIf 20 (x &&& ~~~(testsMask t) != 0)
  | .schedule trig a m _ time arg =>
    badIf 16 (decide (3 < trig.toNat)) ++ badIf 17 (!hostAction a && !deviceAction a) ++ badIf 18 (maskBad d m) ++
    badIf 24 (trig == 2 && decide (2 ^ 32 ≤ time.toNat) || trig == 3 && time != 0) ++ badIf 32 (argBad a arg)
  | .cancel _ => []
  | .laneSpare p l => badIf 16 (portBad d p) ++ badIf 17 (!(l == 16 || l == 17 || l == p))
  | .configLoad _ len a => badIf 20 (decide (1048576 < len.toNat)) ++ badIf 24 (addrBad a len.toNat)
  | .configCommit => []
  | .fwStage i l o len a =>
    badIf 16 (decide (1 < i.toNat)) ++ badIf 17 (decide (1 < l.toNat)) ++ badIf 20 (beyondSlot i o.toNat len.toNat) ++ badIf 24 (decide (1048576 < len.toNat)) ++
    badIf 32 (addrBad a len.toNat)
  | .fwActivate i => badIf 16 (decide (3 < i.toNat))
  | .timeSet m c _ => badIf 16 (decide (3 < m.toNat)) ++ badIf 24 (!captureMatches d c)
  | .rasterSet r => rasterBad r
  | .faultAck s => badIf 16 (s != 0xFFFF && !(decide (s.toNat < 1024) && srcDefined (s.setWidth 10)))
  | .faultForce s l =>
    badIf 16 (!(decide (s.toNat < 1024) && srcDefined (s.setWidth 10))) ++ badIf 18 (decide (3 < l.toNat))
  | .countersRead p s a => badIf 16 (portBad d p) ++ badIf 17 (s != 0) ++ badIf 24 (addrBad a 128)
  | .atticSetup p j _ a =>
    badIf 16 (portBad d p) ++ badIf 17 (!(j == 0 || (decide (6 ≤ j.toNat) && decide (j.toNat ≤ 24)))) ++ 
    badIf 24 (pageBad a || addrBad a (if j == 0 then 0 else 32 * 2 ^ j.toNat))
  | .dumpSetup s a =>
    badIf 16 (!(s == 0 || (s.toNat % 4096 == 0 && decide (65536 ≤ s.toNat) && decide (s.toNat ≤ 8388608)))) ++
    badIf 24 (addrBad a s.toNat)
  | .sleep t => badIf 16 (t != 0)

def lowest : List Nat → Option Nat
  | [] => none
  | x :: xs => some (xs.foldl min x)

/-! ### What a function may ask for (R346, R352) -/

def permitted (f : Fn) (c : Cmd) : Bool :=
  match f, c with
  | .pf0, .schedule _ a _ _ _ _ => !deviceAction a
  | .pf0, _ => true
  | .pf1, .nop _ | .pf1, .portStatus _ | .pf1, .cancel _ | .pf1, .countersRead .. => true
  | .pf1, .schedule _ a _ _ _ _ => a == 6 || a == 9
  | .pf1, _ => false

/-- Commands whose ACCEPTED completion is their only one (R339). -/
def isShort : Cmd → Bool
  | .nop _ | .portStatus _ | .cancel _ | .faultAck _ | .faultForce .. | .atticSetup .. | .dumpSetup .. => true
  | _ => false

/-- The port that a command names. -/
def cmdPort : Cmd → Option (Fin 16)
  | .portConfig p _ _ | .portUp p | .portDown p | .portIsolate p | .portStatus p | .oamSend p _ _ _ | .diagTdr p
  | .diagSignature p _ _ | .capture p _ _ _ _ | .laneSpare p _ | .countersRead p _ _ | .atticSetup p _ _ _ => portOf p
  | _ => none

end Sys2Proof.Machine
end

