-- ==== Sys2Proof/Machine/Commands.lean ====
section
/-! DEFINITION. The commands of the rings: acceptance and its order of checks, what each operation does when it starts, the reads
of its buffers, and its end (R284, R292, R337–R354, R446, R450, R525, R531). -/
namespace Sys2Proof.Machine

/-! ### Conflicts and states (R34, R36, R348, R445) -/

def isOam (c : Cmd) : Bool := match c with | .oamSend .. => true | _ => false
def isPortUp (c : Cmd) : Bool := match c with | .portUp _ => true | _ => false

/-- CONFIG_LOAD, CONFIG_COMMIT, FW_STAGE and FW_ACTIVATE. -/
def isLoad (c : Cmd) : Bool :=
  match c with
  | .configLoad .. | .configCommit | .fwStage .. | .fwActivate _ => true
  | _ => false

/-- Commands of one group, in which the later supersedes the earlier. -/
def superseded (c : Cmd) (o : Op) : Bool :=
  match c, o.cmd with
  | .timeSet .., .timeSet .. | .rasterSet _, .rasterSet _ => true
  | .portDown p, .portUp q | .portIsolate p, .portUp q => p == q
  | _, _ => false

/-- Operations that have not ended. -/
def openOps (d : Dev) : List Op := d.host.ops.filter fun o => o.final.isNone

/-- The open port operations of the port that a port command names. -/
def rivals (d : Dev) (p : W8) : List Op := (openOps d).filter fun o => o.portCmd == some p

/-- A spare that LANE_SPARE may not have. -/
def spareTaken (d : Dev) (n : Fin 16) (m : Fin 20) : Bool :=
  let l := d.lane m
  (l.port.isSome && l.port != some n) || (l.reserved.isSome && l.reserved != some n && laneBad d m) || l.target.isSome

def laneOf (l : W8) : Option (Fin 20) := if h : l.toNat < 20 then some ⟨l.toNat, h⟩ else none

/-- A conflicting operation is open. -/
def busy (d : Dev) (c : Cmd) : Bool :=
  match c with
  | .portConfig p _ _ | .portUp p | .diagTdr p | .diagSignature p _ _ => !(rivals d p).isEmpty
  | .portDown p | .portIsolate p => (rivals d p).any fun o => !isPortUp o.cmd
  | .oamSend p _ _ _ => (rivals d p).any (fun o => !isOam o.cmd) || decide (4 ≤ (rivals d p).length)
  | .laneSpare p l =>
    !(rivals d p).isEmpty ||
    match portOf p, laneOf l with
    | some n, some m => decide (16 ≤ m.val) && spareTaken d n m
    | _, _ => false
  | .bistRun t m _ =>
    if t == 2 then d.bist.privOp.isSome else (maskPorts m).any fun n => (d.port n).bist.op.isSome || (d.port n).bist.logicRun
  | .configLoad .. => (openOps d).any (fun o => isLoad o.cmd) || d.cfg.stream.isSome
  | .configCommit | .fwStage .. | .fwActivate _ => (openOps d).any fun o => isLoad o.cmd
  | _ => false

/-- What R445 lets a ring do in HOLD. -/
def holdAllows (c : Cmd) : Bool :=
  match c with
  | .nop _ | .portStatus _ | .configLoad .. | .configCommit | .fwStage .. | .faultAck _ | .dumpSetup .. => true
  | _ => false

def stOf (d : Dev) (p : W8) : PortSt :=
  match portOf p with
  | some n => (d.port n).link.st
  | none => .retired

/-- The present port state as DETAIL. -/
def portDetail (d : Dev) (p : W8) : W16 := BitVec.ofNat 16 (stOf d p).code

/-- The device mode as DETAIL. -/
def modeDetail (d : Dev) : W16 := BitVec.ofNat 16 d.sys.mode.code

/-- A port in a state other than one of a list. -/
def needState (d : Dev) (p : W8) (l : List PortSt) : Option W16 := if l.contains (stOf d p) then none else some (portDetail d p)

def portSettingsOk (d : Dev) (p : W8) : Bool :=
  match portOf p with
  | some n => linkOk (d.port n).cfg
  | none => false

/-- A port carried in a standard coding that is UP or TRAINING. -/
def stdBusy (d : Dev) (n : Fin 16) : Bool :=
  (laneCode d (d.port n).lane).1 != 1 && ((d.port n).link.st == .up || (d.port n).link.st == .training)

/-- Why a command is refused with STATE: DETAIL. -/
def stateBad (d : Dev) (c : Cmd) : Option W16 :=
  if d.sys.mode == .hold && !holdAllows c then some (modeDetail d)
  else match c with
    | .portUp p =>
      if !portSettingsOk d p then some (portDetail d p)
      else if !trainMode d then some (modeDetail d)
      else needState d p [.down, .isolated, .training, .up]
    | .portDown p => needState d p [.training, .up, .reef1, .reef2]
    | .portIsolate p =>
      if !trainMode d then some (modeDetail d) else needState d p [.down, .training, .up, .reef1, .reef2, .fenced]
    | .oamSend p _ _ _ =>
      match portOf p with
      | some n => if (d.port n).link.st == .up && (d.port n).link.mode.gletik then none else some (portDetail d p)
      | none => some (portDetail d p)
    | .diagTdr p => needState d p [.isolated]
    | .diagSignature p _ _ => needState d p [.up]
    | .bistRun t m _ =>
      if t == 2 then (if d.sys.mode == .maintain then none else some (modeDetail d))
      else if t == 1 then
        match (maskPorts m).find? fun n => (d.port n).link.st != .isolated with
        | some n => some (BitVec.ofNat 16 (d.port n).link.st.code)
        | none => none
      else none
    | .laneSpare p l =>
      match portOf p, laneOf l with
      | some n, some m =>
        if (decide (m.val < 16) && laneBad d m) || stdBusy d n then some (portDetail d p) else none
      | _, _ => none
    | .configCommit => if d.sys.mode == .hold || trainMode d then none else some (modeDetail d)
    | .fwActivate _ => if d.sys.mode == .maintain then none else some (modeDetail d)
    | .sleep _ => if mayDeep d then none else some (modeDetail d)
    | _ => none

/-! ### SCHEDULE (R300, R301, R307) -/

/-- The entry that a SCHEDULE places. -/
def scheduled (d : Dev) (f : Fn) (h : W16) (trig action : W8) (ports rep : W16) (time : W64) (arg : W32) : CalEntry :=
  let e : CalEntry := { idx := 0, trig := trig.setWidth 3, time := time, rep := rep, ports := ports, action := action,
                        arg := arg, handle := h, fn := f, frame := hi time }
  let e := if trig == 2 then { e with frame := nextLineFrame d e } else e
  let fb : W64 :=
    if onRaster e then (if d.raster.set then tickOf (posT16 d.raster d.t16 e) else BitVec.ofNat 64 (Config.freeNat d.free))
    else d.dt.dt + BitVec.ofNat 64 (if e.camera then trgLead d else 0)
  { e with fallback := fb }

/-- A trigger that has passed, or lies less than TRG_LEAD ahead for a camera. -/
def passed (d : Dev) (e : CalEntry) : Bool :=
  let lead : Int := if e.camera then (trgLead d * 65536 : Nat) else 0
  let now := (d.t16 + lead) / 65536
  if e.trig == 0 then decide ((e.time.toNat : Int) < now)
  else if onRaster e && d.raster.set then decide (posT16 d.raster d.t16 e / 65536 < now)
  else false

/-- Entries that commands have placed for a port. -/
def hostEntries (d : Dev) : List CalEntry := d.hal.cal.filter fun e => e.handle != 0xFFFF

def calFull (d : Dev) (ports : W16) : Bool :=
  decide (3840 ≤ (hostEntries d).length) ||
  (maskPorts ports).any fun n => decide (240 ≤ ((hostEntries d).filter fun e => bit e.ports n.val).length)

/-- What the calendar refuses: STATUS. -/
def calRefuses (d : Dev) (f : Fn) (c : Cmd) : Option W16 :=
  match c with
  | .schedule trig a m rep time arg =>
    if calFull d m then some stCalFull
    else if passed d (scheduled d f 0xFFFF trig a m rep time arg) then some stPassed
    else none
  | _ => none

/-! ### The order of the checks -/

/-- Why a command is refused: STATUS and DETAIL. -/
def refusal (d : Dev) (f : Fn) (bad : List Nat) (c : Cmd) : Option (W16 × W16) :=
  if !permitted f c then some (stPrivilege, 0)
  else match lowest (bad ++ paramBad d c) with
    | some k => some (stBadParam, BitVec.ofNat 16 k)
    | none =>
      match stateBad d c with
      | some detail => some (stState, detail)
      | none =>
        if busy d c then some (stBusy, 0)
        else match calRefuses d f c with
          | some st => some (st, 0)
          | none => if !isShort c && decide (quota d f ≤ liveHandles d f) then some (stQuota, 0) else none

/-! ### Short commands -/

/-- STATUS, RESULT0 and RESULT1. -/
structure ShortResult where
  status : W16 := 0
  r0 : W32 := 0
  r1 : W32 := 0
  deriving DecidableEq, Repr

/-- An entry that is to fire in the present tick does so before a CANCEL reaches it (R308). -/
def fireNow (d : Dev) (h : W16) : Dev :=
  match d.hal.cal.find? fun e => e.handle == h && h != 0xFFFF && !e.ahead && entryTick d e == some d.dt.dt with
  | some e => fireAhead (fireFirst d e) e
  | none => d

/-- CANCEL (R353). A handle is live until its FINAL completion is written (R343); a SCHEDULE that has fired in this tick is answered as
one that is not (R308). -/
def cancelOp (d : Dev) (f : Fn) (h : W16) : Dev × ShortResult :=
  let d := match findOp d h with
    | some o => if o.fn == f then fireNow d h else d
    | none => d
  match findOp d h with
  | none => (d, ⟨stNoHandle, 0, 0⟩)
  | some o =>
    let firedNow := match o.cmd, o.final with
      | .schedule .., some r => d.dt.running && r.stamp.dt == d.dt.dt
      | _, _ => false
    if o.fn != f || firedNow then (d, ⟨stNoHandle, 0, 0⟩)
    else if o.final.isSome then (d, ⟨stNotCancellable, 0, 0⟩)
    else
      let may := match o.cmd with
        | .schedule .. => true
        | .capture _ _ st _ _ => st == 1 && o.fails1 == 0
        | _ => false
      if may then (endOp (forgetOp d h) h stCancelled, {}) else (d, ⟨stNotCancellable, 0, 0⟩)

/-- FAULT_ACK (R520). -/
def ackCommand (d : Dev) (src : W16) : Dev × ShortResult :=
  if src == 0xFFFF then (ackAll d, { r0 := BitVec.ofNat 32 (ackCount d allSources) })
  else
    let s : BitVec 10 := src.setWidth 10
    (ackSource d s, { r0 := BitVec.ofNat 32 (b2n (ackable d s)) })

/-- FAULT_FORCE (R525). -/
def forceCommand (d : Dev) (src : W16) (lvl : W8) : Dev × ShortResult :=
  let s : BitVec 10 := src.setWidth 10
  match srcScope s, srcLevels s with
  | some sc, some (_, cap) =>
    let r := forceResult d sc s lvl.toNat cap
    (followUp (forceOccur d s lvl.toNat) s, { r0 := at_ 0 r.1 ||| atB 8 r.2 })
  | _, _ => (d, {})

/-- ATTIC_SETUP (R330, R358, R365): the ring starts at index 0 with phase bit 1, or stops. -/
def atticCommand (d : Dev) (n : Fin 16) (j : W8) (period : W16) (a : W64) : Dev :=
  let d := d.modPort n fun p => { p with attic :=
    if j == 0 then { p.attic with on := false, dmaHalt := false }
    else { p.attic with
      on := true, depth := j.toNat, period := if period == 0 then 1024 else period, addr := a, idx := 0, phase := true, seq := 0,
      dmaHalt := false, lastUncorr := p.rtx.counters[3], lastMissing := p.rtx.counters[7] } }
  atticGap d n

/-- DUMP_SETUP (R530, R531): the region, and the copy of a flash summary. -/
def dumpCommand (d : Dev) (size : W32) (a : W64) : Dev :=
  let h := d.flt.halt
  if size == 0 then { d with flt := { d.flt with halt := { h with region := none } } }
  else
    let d := { d with flt := { d.flt with halt := { h with region := some (a, size), flashValid := false } } }
    if h.flashValid then
      ({ d with boot := { d.boot with flash := { d.boot.flash with summary := none } } }.emit
        (.dumpCopied a ((d.boot.flash.summary.getD []).take size.toNat))).emit (.flashWrite 3)
    else d

def runShort (d : Dev) (f : Fn) (c : Cmd) : Dev × ShortResult :=
  match c with
  | .nop echo => (d, { r0 := echo })
  | .portStatus p =>
    match portOf p with
    | some n => (d, { r0 := ptLinkStat (d.port n), r1 := ptMargin (d.port n) })
    | none => (d, {})
  | .cancel h => cancelOp d f h
  | .faultAck s => ackCommand d s
  | .faultForce s l => forceCommand d s l
  | .atticSetup p j period a =>
    match portOf p with
    | some n => (atticCommand d n j period a, {})
    | none => (d, {})
  | .dumpSetup size a => (dumpCommand d size a, {})
  | _ => (d, {})

/-! ### Long operations, when they start -/

/-- The registers that PORT_CONFIG names, by word. -/
def configOffset : Nat → Nat
  | 0 => 0x000 | 1 => 0x100 | 2 => 0x300 | 3 => 0x200 | 4 => 0x210 | 5 => 0x500 | _ => 0x00C

/-- PORT_CONFIG (R166, R351): writes as PF0 makes them; it ends with a leave that its write of SHR_PORT began. -/
def startConfig (d : Dev) (h : W16) (n : Fin 16) (valid : W16) (words : Vector W32 8) : Dev :=
  let d := (List.finRange 8).foldl (fun d i =>
    if !bit valid i.val then d
    else if i.val == 7 then regWrite d .pf0 (.shrPort n 0) words[i.val]
    else regWrite d .pf0 (.pt n (configOffset i.val)) words[i.val]) d
  if (shrLeave (d.port n)).isSome && bit valid 7 then
    d.modPort n fun p => { p with shr := { p.shr with leaves := p.shr.leaves.map fun l => match l.what with
      | .shrPort _ => { l with op := some h }
      | _ => l } }
  else endOp d h stSuccess

def startUp (d : Dev) (h : W16) (n : Fin 16) : Dev :=
  match (d.port n).link.st with
  | .up => endOp d h stSuccess 0 (ptLinkStat (d.port n)) (ptMargin (d.port n))
  | .down | .isolated => startAttempt d n
  | _ => d

/-- PORT_DOWN and PORT_ISOLATE wait for the leave they announce (R166). -/
def startDownCmd (d : Dev) (n : Fin 16) : Dev := if announces d n then startLeave d n .portDown else goDown d n

def startIsolate (d : Dev) (n : Fin 16) : Dev := if announces d n then startLeave d n .portIsolate else goIsolated d n

def startBist (d : Dev) (h : W16) (target : W8) (ports : W16) (tests : W32) : Dev :=
  if tests == 0 || (target != 2 && ports == 0) then endOp d h stSuccess
  else if target == 2 then
    { d with bist := { d.bist with privOp := some h, privLeft := tests.setWidth 4 } }
  else
    let ns := maskPorts ports
    let d := modOp d h fun o => { o with left := ns.length }
    if target == 1 then
      ns.foldl (fun d n => d.modPort n fun p => { p with bist := { p.bist with logicRun := true, op := some h } }) d
    else ns.foldl (fun d n => startPass d n (some h)) d

def startSpare (d : Dev) (h : W16) (n : Fin 16) (m : Fin 20) : Dev :=
  if (d.port n).lane == m then endOp (setLive d (srcPort n 9) false) h stSuccess
  else
    let d := relane (d.modLane m fun l => { l with target := some h, targetAt := d.dt.dt }) m
    if (d.lane m).rx == .locked then finishSpare d m else d

/-- CONFIG_COMMIT (R349, R446). -/
def startCommit (d : Dev) (h : W16) : Dev :=
  let bytes := heldFrom 0 d.cfg.image
  let r := commitImage { d with cfg := { d.cfg with image := [] } } bytes srcRing h
  match r.2.1 with
  | some e => endOp r.1 h stVerify 0 (e.code.setWidth 32) (e.idx.setWidth 32)
  | none => if r.2.2 then r.1 else endOp r.1 h stSuccess

def kindOf (i : W8) : FwKind := if i == 0 then .mgr else .pc

/-- A chunk for the other kind empties the buffer. -/
def startStage (d : Dev) (h : W16) (k : FwKind) (len : W32) (a : W64) : Dev :=
  let same := match d.cfg.staged with
    | some (x, _) => x == k
    | none => true
  let d := if same then d else { d with cfg := { d.cfg with staged := none } }
  d.emit (.dmaRead h a len.toNat)

/-- The slot that does not run. -/
def inactiveSlot (d : Dev) (k : FwKind) : Bool := !recSlot (bootRecord d.boot.flash) k

/-- The staged slot of a kind becomes active, on trial. -/
def activateRec (k : FwKind) (r : BootRec) : BootRec :=
  match k with
  | .mgr => { r with mgrPrev := r.mgrSlot, mgrSlot := !r.mgrSlot, mgrTrial := true }
  | .pc => { r with pcPrev := r.pcSlot, pcSlot := !r.pcSlot, pcTrial := true }

/-- FW_ACTIVATE (R450). -/
def startActivate (d : Dev) (h : W16) (images : W8) : Dev :=
  let ks := [FwKind.mgr, .pc].filter fun k => bit images (if k == .mgr then 0 else 1)
  if ks.any fun k => !accepted d (fwImage d.boot.flash k (inactiveSlot d k)) then endOp d h stVerify
  else
    let slots := ks.map fun k => (k, inactiveSlot d k)
    let d := if ks.isEmpty then d else writeRecord d fun r => ks.foldl (fun r k => activateRec k r) r
    let d := { d with boot := { slots.foldl (fun b x => runSlot b x.1 x.2 true) d.boot with activateOp := some h } }
    let d := if ks.contains .mgr then mgrRestart d else d
    let d := if ks.contains .pc then d.eachPort fun d n => if (d.port n).on then pcReset d n else d else d
    activateCheck d

/-- TIME_SET (R284, R286). -/
def startTime (d : Dev) (h : W16) (mode : W8) (c v : W64) : Dev :=
  let named (d : Dev) : Dev := if srcAct d == 1 then { d with dt := { d.dt with locked := true } } else d
  let e : Int := (v - c).toInt * 65536
  let slew (d : Dev) : Dev :=
    if e.natAbs < 10 * 65536 then (let d := named (startSlew d e none); endOp d h stSuccess 0 (dtStat d))
    else named (startSlew d e (some h))
  let step (d : Dev) : Dev :=
    let d := onAvail (named (stepTime d e)) clearCoarse
    endOp d h stSuccess 0 (dtStat d)
  match mode.toNat with
  | 0 => step d
  | 1 => slew d
  | 2 =>
    if (e.natAbs : Int) ≤ stepLim d || (e < 0 && !d.dt.coarse) then slew (onAvail d clearCoarse) else step d
  | _ =>
    let d := onAvail (named d) clearCoarse
    endOp d h stSuccess 0 (dtStat d)

/-- COUNTERS_READ (R207, R346): 128 B, by the port controller's DMA. -/
def startCounters (d : Dev) (h : W16) (f : Fn) (n : Fin 16) (a : W64) : Dev :=
  if !(d.port n).pc.up then endOp d h stPcReset
  else endOp (d.emit (.memWrite f a ((d.port n).rtx.counters.toList.flatMap fun c => leBytes 8 c.toNat))) h stSuccess

/-- What a long operation does when it starts. -/
def startCmd (d : Dev) (h : W16) (f : Fn) (c : Cmd) : Dev :=
  match c with
  | .calRun m =>
    if m == 0 then endOp d h stSuccess else (maskPorts m).foldl (fun d n => startRun d n calByCommand) d
  | .bistRun t m x => startBist d h t m x
  | .schedule trig a m rep time arg =>
    let e := scheduled d f h trig a m rep time arg
    placeEntry (if onRaster e && !d.raster.set then { d with free := d.free + 1 } else d) e
  | .configLoad _ len a => d.emit (.dmaRead h a len.toNat)
  | .configCommit => startCommit d h
  | .fwStage i _ _ len a => startStage d h (kindOf i) len a
  | .fwActivate i => startActivate d h i
  | .timeSet m c v => startTime d h m c v
  | .rasterSet r => queueRaster d r (some h)
  | .sleep _ => startDeep d (some h)
  | _ =>
    match cmdPort c with
    | none => d
    | some n =>
      match c with
      | .portConfig _ v w => startConfig d h n v w
      | .portUp _ => startUp d h n
      | .portDown _ => startDownCmd d n
      | .portIsolate _ => startIsolate d n
      | .oamSend _ t len payload => d.modPort n fun p => addExchange p t len payload (some h)
      | .diagSignature _ op a =>
        if op == 0 then (if (d.port n).pc.up then takeSignature d n h f a else endOp d h stPcReset) else d.emit (.dmaRead h a 4096)
      | .capture _ _ st len _ =>
        let d := modOp d h fun o => { o with left := len.toNat / 4096 }
        if len == 0 then endOp d h stSuccess else if st == 0 then startCapture d h else d
      | .laneSpare _ l =>
        match laneOf l with
        | some m => startSpare d h n m
        | none => d
      | .countersRead _ _ a => startCounters d h f n a
      | _ => d

/-- The word that starts an operation of a port controller stays in the controller's queue while the controller is down; with 8
words there the manager holds its further ones back (R399, R405). -/
def tellController (o : Op) (d : Dev) : Dev :=
  match o.controller with
  | some n =>
    if (d.port n).pc.up || (findOp d o.handle).all (fun o => o.final.isSome) then d
    else d.modPort n fun p => { p with pc := { p.pc with toPc := min 8 (p.pc.toPc + 1) } }
  | none => d

/-- A start that finds its state gone completes with STATE, and one that the calendar refuses with its STATUS. -/
def startOp (d : Dev) (o : Op) : Dev :=
  match stateBad d o.cmd with
  | some detail => endOp d o.handle stState detail
  | none =>
    match calRefuses d o.fn o.cmd with
    | some st => endOp d o.handle st
    | none => tellController o (startCmd d o.handle o.fn o.cmd)

/-! ### Acceptance (R338–R344, R348) -/

def nextHandle (h : W16) : W16 := if 0xFFFE ≤ h then 0 else h + 1

/-- The first handle from h on that no operation holds. -/
def freeHandle (ops : List Op) : Nat → W16 → W16
  | 0, h => h
  | k + 1, h => if ops.any fun o => o.handle == h then freeHandle ops k (nextHandle h) else h

def allocHandle (d : Dev) : W16 := freeHandle d.host.ops d.host.ops.length (nextHandle d.host.lastHandle)

/-- A halted DMA channel resumes with a command for its port; the GAP record that follows an ATTIC_SETUP stands in the new ring
(R365). -/
def resumeDma (d : Dev) (c : Cmd) : Dev :=
  match c, cmdPort c with
  | .atticSetup .., _ => d
  | _, some n =>
    if (d.port n).attic.dmaHalt then atticGap (d.modPort n fun p => { p with attic := { p.attic with dmaHalt := false } }) n else d
  | _, none => d

/-- What acceptance itself does (R90, R284, R292, R348): a command it supersedes completes with CANCELLED. -/
def supersede (d : Dev) (c : Cmd) : Dev :=
  let gone := (openOps d).filter (superseded c)
  let d := gone.foldl (fun d o => endOp (forgetOp d o.handle) o.handle stCancelled) d
  let d := match c with
    | .timeSet .. => if gone.isEmpty then d else stopSlew d
    | _ => d
  match cmdPort c with
  | none => d
  | some n =>
    d.modPort n fun p => match c with
      | .portConfig .. => { p with link := { p.link with f := 0 } }
      | .portUp _ => { p with link := { p.link with f := 0, wanted := true } }
      | .portDown _ => { p with link := { p.link with wanted := false, lastFail := if gone.isEmpty then p.link.lastFail else 12 } }
      | .portIsolate _ => { p with link := { p.link with lastFail := if gone.isEmpty then p.link.lastFail else 12 } }
      | _ => p

/-- An earlier long operation of the same ring has not ended. -/
def fencedBy (d : Dev) (f : Fn) (k : Fin 16) (order : Nat) : Bool :=
  (openOps d).any fun o => o.fn == f && o.ring == k && decide (o.order < order)

/-- A long command is accepted: its handle, its ACCEPTED completion, and its start unless FENCE holds it. -/
def acceptLong (d : Dev) (x : CmdHdr) (sqHead : W16) (c : Cmd) : Dev :=
  let h := allocHandle d
  let order := d.host.orderNext
  let d := supersede d c
  let limit : W64 := if x.deadline == 0 then 250000000 else x.deadline
  let go := !(x.fence && fencedBy d x.fn x.ring order)
  let j := boundCq (d.fn x.fn) x.ring
  let o : Op := { handle := h, fn := x.fn, ring := x.ring, cq := j, tag := x.tag, cmd := c, fence := x.fence, started := go,
                  deadline := d.dt.dt + limit, order := order, sqHead := sqHead }
  let d := { d with host := { d.host with ops := d.host.ops ++ [o], lastHandle := h, orderNext := order + 1 } }
  let d := putCompletion d x.fn x.ring j x.tag h stAccepted 0 sqHead 0 0 0 d.stamp
  if go then startOp d o else d

/-- A ring gives its turn to the next without an entry (R334). -/
def passTurn (d : Dev) (f : Fn) (k : Fin 16) : Dev :=
  { d with host := { d.host with lastRing := ⟨ringPlace f k % 32, Nat.mod_lt _ (by decide)⟩ } }

/-- A short command that FENCE holds: it waits in its ring for the earlier long operations of that ring (R337; DESIGN CHOICE,
assumption 198). -/
def shortWaits (d : Dev) (x : CmdHdr) (c : Cmd) : Bool := isShort c && x.fence && fencedBy d x.fn x.ring d.host.orderNext

/-- A consumed command gets its one ACCEPTED completion. -/
def acceptCmd (d : Dev) (x : CmdHdr) (bad : List Nat) (c : Cmd) : Dev :=
  if shortWaits d x c && (refusal d x.fn bad c).isNone then passTurn d x.fn x.ring
  else
  let d := consumeEntry d x.fn x.ring
  let sqHead := (d.fn x.fn).sq[x.ring.val].cons
  let j := boundCq (d.fn x.fn) x.ring
  match refusal d x.fn bad c with
  | some (st, detail) => putCompletion d x.fn x.ring j x.tag 0xFFFF st 0 sqHead detail 0 0 d.stamp
  | none =>
    let d := resumeDma d c
    if isShort c then
      let s := d.stamp
      let r := runShort d x.fn c
      putCompletion r.1 x.fn x.ring j x.tag 0xFFFF r.2.status 0 sqHead 0 r.2.r0 r.2.r1 s
    else acceptLong d x sqHead c

/-- The device takes a command from its ring, where it may fetch (R332). -/
def accept (x : CmdHdr) (c : Cmd) (d : Dev) : Dev := if canFetch d x.fn x.ring then acceptCmd d x [] c else d

/-- One entry is fetched: a failed read stops the ring (R337, R346, R363). -/
def fetchEntry (f : Fn) (k : Fin 16) (entry : DmaRead (BitVec 512)) (d : Dev) : Dev :=
  if !canFetch d f k then d
  else match entry with
    | .failed why =>
      let r := (d.fn f).sq[k.val]
      stopSq (d.emit (.aer f why)) f k 2 (r.base + BitVec.ofNat 64 (64 * r.cons.toNat))
    | .data e =>
      let x : CmdHdr := ⟨f, k, b16 e 2, bit (b8 e 1) 0, b64 e 8⟩
      match entryCmd e with
      | some c => acceptCmd d x (reservedBad e c) c
      | none =>
        let d := consumeEntry d f k
        putCompletion d f k (boundCq (d.fn f) k) x.tag 0xFFFF stBadOpcode 0 (d.fn f).sq[k.val].cons 0 0 0 d.stamp

/-- A fenced command starts once every earlier operation of its ring has ended (R337, R340). -/
def fencedStart (h : W16) (d : Dev) : Dev :=
  match findOp d h with
  | some o =>
    if o.started || o.final.isSome || !d.sys.mgrUp || fencedBy d o.fn o.ring o.order then d
    else startOp (modOp d h fun o => { o with started := true }) { o with started := true }
  | none => d

/-- Where the completion of a SLEEP stands, which the host has to consume (R354). -/
def noteSleep (d : Dev) (o : Op) : Dev :=
  match o.cmd, d.avs.deepSent with
  | .sleep _, some (t, none) => { d with avs := { d.avs with deepSent := some (t, some (o.fn, o.cq, ((d.fn o.fn).cq[o.cq.val]).prod)) } }
  | _, _ => d

/-- The FINAL completion of an operation that has ended, when its ring has room; the handle is released (R340, R343). A ring that
software has disabled takes none: the completion is discarded (R336). -/
def finalCompletion (h : W16) (d : Dev) : Dev :=
  match findOp d h with
  | some o =>
    match o.final with
    | some r =>
      let c := (d.fn o.fn).cq[o.cq.val]
      if !d.sys.mgrUp then d
      else if !bit c.cfg 31 then dropOp d h
      else if cqRoom c then
        noteSleep (putCompletion (dropOp d h) o.fn o.ring o.cq o.tag h r.status 1 o.sqHead r.detail r.r0 r.r1 r.stamp) o
      else modOp d h fun o => { o with heldBack := true }
    | none => d
  | none => d

/-- A deadline passes; while the manager restarts, the reconciliation of R28 decides. -/
def commandDeadline (h : W16) (d : Dev) : Dev :=
  match findOp d h with
  | some o => if o.final.isSome || !d.sys.mgrUp then d else expireOp (d.reach o.deadline) h
  | none => d

/-! ### Buffers and flash (R349, R364, R446, R450, R530) -/

/-- The length of the read that an operation waits for. -/
def readLength (o : Op) : Option Nat :=
  if o.final.isSome || !o.started || o.left != 0 then none
  else match o.cmd with
    | .configLoad _ len _ => some len.toNat
    | .fwStage _ _ _ len _ => some len.toNat
    | .diagSignature _ op _ => if op == 1 then some 4096 else none
    | _ => none

/-- The slot of a kind takes an image, or none. -/
def putSlot (f : Flash) (k : FwKind) (slotB : Bool) (i : Option FwImage) : Flash :=
  match k with
  | .mgr => if slotB then { f with mgrB := i } else { f with mgrA := i }
  | .pc => if slotB then { f with pcB := i } else { f with pcA := i }

/-- A chunk of firmware has been read: it is written to the inactive slot. -/
def stageChunk (d : Dev) (o : Op) (k : FwKind) (offset : Nat) (bytes : List W8) : Dev :=
  let held := match d.cfg.staged with
    | some (_, l) => l
    | none => []
  let d := { d with
    cfg := { d.cfg with staged := some (k, putChunk held offset bytes) },
    boot := { d.boot with flash := putSlot d.boot.flash k (inactiveSlot d k) none } }
  (modOp d o.handle fun o => { o with left := 1 }).emit (.flashWrite 2)

/-- The manager takes the end of a buffer read; one that fails is reported also where its operation has ended meanwhile (R364,
R366). -/
def takeBuffer (h : W16) (data : DmaRead (List W8)) (failOffset : W16) (d : Dev) : Dev :=
  match findOp d h with
  | none => d
  | some o =>
    match readLength o, data with
    | none, .data _ => d
    | none, .failed e => d.emit (.aer o.fn e)
    | some _, .failed e => endOp (d.emit (.aer o.fn e)) h stDmaError failOffset
    | some len, .data bytes =>
      if bytes.length != len then d
      else match o.cmd with
        | .configLoad offset _ _ =>
          let image := putChunk d.cfg.image offset.toNat bytes
          endOp { d with cfg := { d.cfg with image := image } } h stSuccess 0 (BitVec.ofNat 32 image.length)
        | .fwStage i _ offset _ _ => stageChunk d o (kindOf i) offset.toNat bytes
        | .diagSignature p _ _ =>
          match portOf p with
          | some n =>
            if (d.port n).link.st == .up then compareSignature d n h bytes else endOp d h stState (portDetail d p)
          | none => d
        | _ => d

/-- The read of a command's buffer ends; while the manager restarts, what arrives waits for it (R28). -/
def bufferRead (h : W16) (data : DmaRead (List W8)) (failOffset : W16) (d : Dev) : Dev :=
  if d.sys.mgrUp then takeBuffer h data failOffset d
  else match (findOp d h).bind readLength with
    | some len =>
      if (match data with | .data b => b.length == len | .failed _ => true) then
        modOp d h fun o => { o with arrived := some (o.arrived.getD (data, failOffset)) }
      else d
    | none => d

/-- What arrived during a restart of the manager is taken. -/
def takeArrivals (d : Dev) : Dev :=
  d.host.ops.foldl (fun d o =>
    match o.arrived with
    | some (b, k) => takeBuffer o.handle b k (modOp d o.handle fun o => { o with arrived := none })
    | none => d) d

/-! ### The return of the manager (R27, R28, R335) -/

/-- The manager is back: it takes what arrived meanwhile, then ends the operations whose deadline has passed (the arrival wins,
R28), processes the held doorbells and posts MGR_RESTART. -/
def mgrBack (d : Dev) : Dev :=
  if !mgrRestarts d then d
  else
    let d := resumeDump (setLive { d with sys := { d.sys with mgrUp := true } } 0x041 false)
    let d := privCheck (takeArrivals (drainQueues d))
    let late := d.host.ops.filter fun o => o.final.isNone && decide (o.deadline < d.dt.dt)
    let d := late.foldl (fun d o => expireOp d o.handle) d
    activateCheck (eventBoth (releaseDoorbells d) 0x0001 0 (leBytes 4 d.sys.restarts.toNat))

/-- A chunk stands in flash; the last one is followed by the checks of R434. -/
def stageDone (d : Dev) (o : Op) (k : FwKind) (last ok : Bool) : Dev :=
  let held := match d.cfg.staged with
    | some (_, l) => l
    | none => []
  if !ok then endOp d o.handle stVerify
  else if !last then endOp d o.handle stSuccess
  else
    let i := Config.fwImageOf (heldFrom 0 held)
    let d := { d with
      cfg := { d.cfg with staged := none },
      boot := { d.boot with flash := putSlot d.boot.flash k (inactiveSlot d k) i } }
    endOp d o.handle (if accepted d i then stSuccess else stVerify)

/-- The summary stands in flash, or its write has failed (R530). -/
def summaryDone (d : Dev) (ok : Bool) : Dev :=
  let h := d.flt.halt
  let bytes := h.flashing
  let h := { h with flashing := none, pending := false }
  if ok then
    { d with
      flt := { d.flt with halt := { h with state := 3, flashValid := true } },
      boot := { d.boot with flash := { d.boot.flash with summary := bytes } } }
  else { d with flt := { d.flt with halt := h } }

/-- A write to flash ends: the one under way, the image before a chunk of firmware and the summary last. -/
def flashDone (ok : Bool) (d : Dev) : Dev :=
  let stage := liveOp d fun o => o.left == 1 && match o.cmd with | .fwStage .. => true | _ => false
  match d.cfg.persistOp, stage with
  | some h, _ => persistDone d h ok
  | none, some o =>
    match o.cmd with
    | .fwStage i last _ _ _ => stageDone d o (kindOf i) (last == 1) ok
    | _ => d
  | none, none => if d.flt.halt.flashing.isSome then summaryDone d ok else d

/-! ### The rows -/

def execSubmissionEntryFetch (f : Fn) (k : Fin 16) (e : DmaRead (BitVec 512)) (s : State) : Host.Outcome State Fault Refusal :=
  onLive s (fetchEntry f k e)
def execMgrRestartDone (s : State) : Host.Outcome State Fault Refusal := onLive s mgrBack
def execFencedCommandStart (h : W16) (s : State) : Host.Outcome State Fault Refusal := onLive s (fencedStart h)
def execFinalCompletion (h : W16) (s : State) : Host.Outcome State Fault Refusal := onLive s (finalCompletion h)
def execCommandDeadline (h : W16) (s : State) : Host.Outcome State Fault Refusal := onLive s (commandDeadline h)
def execBufferReadCompletion (h : W16) (data : DmaRead (List W8)) (o : W16) (s : State) : Host.Outcome State Fault Refusal :=
  onLive s (bufferRead h data o)
def execFlashWriteDone (ok : Bool) (s : State) : Host.Outcome State Fault Refusal := onLive s (flashDone ok)
def execNop (x : CmdHdr) (echo : W32) (s : State) : Host.Outcome State Fault Refusal := onLive s (accept x (.nop echo))
def execPortConfig (x : CmdHdr) (p : W8) (v : W16) (w : Vector W32 8) (s : State) : Host.Outcome State Fault Refusal :=
  onLive s (accept x (.portConfig p v w))
def execPortUp (x : CmdHdr) (p : W8) (s : State) : Host.Outcome State Fault Refusal := onLive s (accept x (.portUp p))
def execPortDown (x : CmdHdr) (p : W8) (s : State) : Host.Outcome State Fault Refusal := onLive s (accept x (.portDown p))
def execPortIsolate (x : CmdHdr) (p : W8) (s : State) : Host.Outcome State Fault Refusal := onLive s (accept x (.portIsolate p))
def execPortStatus (x : CmdHdr) (p : W8) (s : State) : Host.Outcome State Fault Refusal := onLive s (accept x (.portStatus p))
def execOamSend (x : CmdHdr) (p t len : W8) (b : BitVec 352) (s : State) : Host.Outcome State Fault Refusal :=
  onLive s (accept x (.oamSend p t len b))
def execDiagTdr (x : CmdHdr) (p : W8) (s : State) : Host.Outcome State Fault Refusal := onLive s (accept x (.diagTdr p))
def execDiagSignature (x : CmdHdr) (p op : W8) (a : W64) (s : State) : Host.Outcome State Fault Refusal :=
  onLive s (accept x (.diagSignature p op a))
def execCapture (x : CmdHdr) (p src st : W8) (len : W32) (a : W64) (s : State) : Host.Outcome State Fault Refusal :=
  onLive s (accept x (.capture p src st len a))
def execCalRun (x : CmdHdr) (m : W16) (s : State) : Host.Outcome State Fault Refusal := onLive s (accept x (.calRun m))
def execBistRun (x : CmdHdr) (t : W8) (m : W16) (tests : W32) (s : State) : Host.Outcome State Fault Refusal :=
  onLive s (accept x (.bistRun t m tests))
def execSchedule (x : CmdHdr) (trig a : W8) (m rep : W16) (time : W64) (arg : W32) (s : State) :
    Host.Outcome State Fault Refusal :=
  onLive s (accept x (.schedule trig a m rep time arg))
def execCancel (x : CmdHdr) (h : W16) (s : State) : Host.Outcome State Fault Refusal := onLive s (accept x (.cancel h))
def execLaneSpare (x : CmdHdr) (p l : W8) (s : State) : Host.Outcome State Fault Refusal := onLive s (accept x (.laneSpare p l))
def execConfigLoad (x : CmdHdr) (o len : W32) (a : W64) (s : State) : Host.Outcome State Fault Refusal :=
  onLive s (accept x (.configLoad o len a))
def execConfigCommit (x : CmdHdr) (s : State) : Host.Outcome State Fault Refusal := onLive s (accept x .configCommit)
def execFwStage (x : CmdHdr) (i last : W8) (o len : W32) (a : W64) (s : State) : Host.Outcome State Fault Refusal :=
  onLive s (accept x (.fwStage i last o len a))
def execFwActivate (x : CmdHdr) (i : W8) (s : State) : Host.Outcome State Fault Refusal := onLive s (accept x (.fwActivate i))
def execTimeSet (x : CmdHdr) (m : W8) (c v : W64) (s : State) : Host.Outcome State Fault Refusal :=
  onLive s (accept x (.timeSet m c v))
def execRasterSet (x : CmdHdr) (r : RasterParams) (s : State) : Host.Outcome State Fault Refusal :=
  onLive s (accept x (.rasterSet r))
def execFaultAck (x : CmdHdr) (src : W16) (s : State) : Host.Outcome State Fault Refusal := onLive s (accept x (.faultAck src))
def execFaultForce (x : CmdHdr) (src : W16) (l : W8) (s : State) : Host.Outcome State Fault Refusal :=
  onLive s (accept x (.faultForce src l))
def execCountersRead (x : CmdHdr) (p set_ : W8) (a : W64) (s : State) : Host.Outcome State Fault Refusal :=
  onLive s (accept x (.countersRead p set_ a))
def execAtticSetup (x : CmdHdr) (p j : W8) (period : W16) (a : W64) (s : State) : Host.Outcome State Fault Refusal :=
  onLive s (accept x (.atticSetup p j period a))
def execDumpSetup (x : CmdHdr) (size : W32) (a : W64) (s : State) : Host.Outcome State Fault Refusal :=
  onLive s (accept x (.dumpSetup size a))
def execSleep (x : CmdHdr) (t : W8) (s : State) : Host.Outcome State Fault Refusal := onLive s (accept x (.sleep t))

end Sys2Proof.Machine
end

