-- ==== Sys2Proof/Machine/Dispatch.lean ====
section
/-! DEFINITION. The meaning of each command, one arm per constructor. -/
namespace Sys2Proof.Machine

def exec (i : Instr) (s : State) : Host.Outcome State Fault Refusal :=
  match i with
  | .porstNAssert => Sys2Proof.Machine.execPorstNAssert s
  | .aonSupplyLoss => Sys2Proof.Machine.execAonSupplyLoss s
  | .porstNRelease straps flash => Sys2Proof.Machine.execPorstNRelease straps flash s
  | .startUpDelayExpiry r => Sys2Proof.Machine.execStartUpDelayExpiry r s
  | .sourceQualified c => Sys2Proof.Machine.execSourceQualified c s
  | .lpllLock => Sys2Proof.Machine.execLpllLock s
  | .hpllLock => Sys2Proof.Machine.execHpllLock s
  | .firmwareVerify => Sys2Proof.Machine.execFirmwareVerify s
  | .endOfBoot => Sys2Proof.Machine.execEndOfBoot s
  | .privilegedDeviceReset m key => Sys2Proof.Machine.execPrivilegedDeviceReset m key s
  | .perstNAssert => Sys2Proof.Machine.execPerstNAssert s
  | .functionLevelReset f => Sys2Proof.Machine.execFunctionLevelReset f s
  | .busMasterEnableClear f => Sys2Proof.Machine.execBusMasterEnableClear f s
  | .d3hotEntry f => Sys2Proof.Machine.execD3hotEntry f s
  | .pcieLinkDown => Sys2Proof.Machine.execPcieLinkDown s
  | .sqDoorbell f k index => Sys2Proof.Machine.execSqDoorbell f k index s
  | .cqDoorbell f k index => Sys2Proof.Machine.execCqDoorbell f k index s
  | .eventDoorbell f index => Sys2Proof.Machine.execEventDoorbell f index s
  | .ringEnable f kind k cfg => Sys2Proof.Machine.execRingEnable f kind k cfg s
  | .ringDisable f kind k cfg => Sys2Proof.Machine.execRingDisable f kind k cfg s
  | .submissionEntryFetch f k entry => Sys2Proof.Machine.execSubmissionEntryFetch f k entry s
  | .fencedCommandStart h => Sys2Proof.Machine.execFencedCommandStart h s
  | .finalCompletion h => Sys2Proof.Machine.execFinalCompletion h s
  | .commandDeadline h => Sys2Proof.Machine.execCommandDeadline h s
  | .coalesceTimer f k => Sys2Proof.Machine.execCoalesceTimer f k s
  | .msixUnmask f vector => Sys2Proof.Machine.execMsixUnmask f vector s
  | .nop h echo => Sys2Proof.Machine.execNop h echo s
  | .portConfig h port valid words => Sys2Proof.Machine.execPortConfig h port valid words s
  | .portUp h port => Sys2Proof.Machine.execPortUp h port s
  | .portDown h port => Sys2Proof.Machine.execPortDown h port s
  | .portIsolate h port => Sys2Proof.Machine.execPortIsolate h port s
  | .portStatus h port => Sys2Proof.Machine.execPortStatus h port s
  | .oamSend h port type len payload => Sys2Proof.Machine.execOamSend h port type len payload s
  | .diagTdr h port => Sys2Proof.Machine.execDiagTdr h port s
  | .diagSignature h port op addr => Sys2Proof.Machine.execDiagSignature h port op addr s
  | .capture h port source start length addr => Sys2Proof.Machine.execCapture h port source start length addr s
  | .calRun h ports => Sys2Proof.Machine.execCalRun h ports s
  | .bistRun h target ports tests => Sys2Proof.Machine.execBistRun h target ports tests s
  | .schedule h trig action ports repeatN time arg => Sys2Proof.Machine.execSchedule h trig action ports repeatN time arg s
  | .cancel h handle => Sys2Proof.Machine.execCancel h handle s
  | .laneSpare h port lane => Sys2Proof.Machine.execLaneSpare h port lane s
  | .configLoad h offset length addr => Sys2Proof.Machine.execConfigLoad h offset length addr s
  | .configCommit h => Sys2Proof.Machine.execConfigCommit h s
  | .fwStage h image last offset length addr => Sys2Proof.Machine.execFwStage h image last offset length addr s
  | .fwActivate h images => Sys2Proof.Machine.execFwActivate h images s
  | .timeSet h mode c v => Sys2Proof.Machine.execTimeSet h mode c v s
  | .rasterSet h r => Sys2Proof.Machine.execRasterSet h r s
  | .faultAck h src => Sys2Proof.Machine.execFaultAck h src s
  | .faultForce h src level => Sys2Proof.Machine.execFaultForce h src level s
  | .countersRead h port set addr => Sys2Proof.Machine.execCountersRead h port set addr s
  | .atticSetup h port depth period addr => Sys2Proof.Machine.execAtticSetup h port depth period addr s
  | .dumpSetup h size addr => Sys2Proof.Machine.execDumpSetup h size addr s
  | .sleep h target => Sys2Proof.Machine.execSleep h target s
  | .atticPeriodic n => Sys2Proof.Machine.execAtticPeriodic n s
  | .registerWrite a size value => Sys2Proof.Machine.execRegisterWrite a size value s
  | .rcRead a size => Sys2Proof.Machine.execRcRead a size s
  | .wideSelWrite m sel => Sys2Proof.Machine.execWideSelWrite m sel s
  | .wideD3Read m => Sys2Proof.Machine.execWideD3Read m s
  | .lockRead m ix => Sys2Proof.Machine.execLockRead m ix s
  | .lockRelease m ix value => Sys2Proof.Machine.execLockRelease m ix value s
  | .lockFree m mask => Sys2Proof.Machine.execLockFree m mask s
  | .mbxH2dWrite m b word => Sys2Proof.Machine.execMbxH2dWrite m b word s
  | .mbxD2hRead m b => Sys2Proof.Machine.execMbxD2hRead m b s
  | .mbxD2hWrite b => Sys2Proof.Machine.execMbxD2hWrite b s
  | .mbxIeWrite m b value => Sys2Proof.Machine.execMbxIeWrite m b value s
  | .ping b => Sys2Proof.Machine.execPing b s
  | .ringStop b => Sys2Proof.Machine.execRingStop b s
  | .mbxFaultAck b => Sys2Proof.Machine.execMbxFaultAck b s
  | .maintainEntry b => Sys2Proof.Machine.execMaintainEntry b s
  | .maintainEnd b => Sys2Proof.Machine.execMaintainEnd b s
  | .safeResume b => Sys2Proof.Machine.execSafeResume b s
  | .configStreamStart b => Sys2Proof.Machine.execConfigStreamStart b s
  | .configStreamData b => Sys2Proof.Machine.execConfigStreamData b s
  | .configStreamCommit b => Sys2Proof.Machine.execConfigStreamCommit b s
  | .configStreamAbort b => Sys2Proof.Machine.execConfigStreamAbort b s
  | .configStreamTimeout => Sys2Proof.Machine.execConfigStreamTimeout s
  | .reservedMailboxType b => Sys2Proof.Machine.execReservedMailboxType b s
  | .sidebandAbandon write addr => Sys2Proof.Machine.execSidebandAbandon write addr s
  | .parityMismatch offset => Sys2Proof.Machine.execParityMismatch offset s
  | .parityRewrite => Sys2Proof.Machine.execParityRewrite s
  | .mgrWdog => Sys2Proof.Machine.execMgrWdog s
  | .mgrRestartDone => Sys2Proof.Machine.execMgrRestartDone s
  | .mgrStuck => Sys2Proof.Machine.execMgrStuck s
  | .pcWdog n => Sys2Proof.Machine.execPcWdog n s
  | .pcRestartDone n => Sys2Proof.Machine.execPcRestartDone n s
  | .firmwareConfirmed k => Sys2Proof.Machine.execFirmwareConfirmed k s
  | .referenceLoss r => Sys2Proof.Machine.execReferenceLoss r s
  | .lpllInputLoss => Sys2Proof.Machine.execLpllInputLoss s
  | .holdoverTimeout => Sys2Proof.Machine.execHoldoverTimeout s
  | .pllOutputLoss p => Sys2Proof.Machine.execPllOutputLoss p s
  | .pcieRefLoss => Sys2Proof.Machine.execPcieRefLoss s
  | .rcDrift => Sys2Proof.Machine.execRcDrift s
  | .slewComplete => Sys2Proof.Machine.execSlewComplete s
  | .clockSwitchForced => Sys2Proof.Machine.execClockSwitchForced s
  | .clockResume => Sys2Proof.Machine.execClockResume s
  | .resume m => Sys2Proof.Machine.execResume m s
  | .refPri m => Sys2Proof.Machine.execRefPri m s
  | .altEnSet m => Sys2Proof.Machine.execAltEnSet m s
  | .altEnClear m => Sys2Proof.Machine.execAltEnClear m s
  | .lpllCandidateChange m value => Sys2Proof.Machine.execLpllCandidateChange m value s
  | .faultOccurrence src e => Sys2Proof.Machine.execFaultOccurrence src e s
  | .faultEventPost => Sys2Proof.Machine.execFaultEventPost s
  | .fltForceWrite m group value => Sys2Proof.Machine.execFltForceWrite m group value s
  | .dumpTimeout => Sys2Proof.Machine.execDumpTimeout s
  | .temperatureSample celsius => Sys2Proof.Machine.execTemperatureSample celsius s
  | .avsVoltageRequest m volt => Sys2Proof.Machine.execAvsVoltageRequest m volt s
  | .avsFrequencyRequest m freq => Sys2Proof.Machine.execAvsFrequencyRequest m freq s
  | .avsTargetReached => Sys2Proof.Machine.execAvsTargetReached s
  | .avsTimeout => Sys2Proof.Machine.execAvsTimeout s
  | .avsReadback millivolt => Sys2Proof.Machine.execAvsReadback millivolt s
  | .padRelease m mask => Sys2Proof.Machine.execPadRelease m mask s
  | .devIdleExpiry => Sys2Proof.Machine.execDevIdleExpiry s
  | .reefExitDevice c => Sys2Proof.Machine.execReefExitDevice c s
  | .longIdleExpiry => Sys2Proof.Machine.execLongIdleExpiry s
  | .deepEntryPowerOff => Sys2Proof.Machine.execDeepEntryPowerOff s
  | .wakeSourceFire w => Sys2Proof.Machine.execWakeSourceFire w s
  | .sidebandAddressMatch addr => Sys2Proof.Machine.execSidebandAddressMatch addr s
  | .peWakeTimeout => Sys2Proof.Machine.execPeWakeTimeout s
  | .peWakeRelease => Sys2Proof.Machine.execPeWakeRelease s
  | .laneEnable m lane value => Sys2Proof.Machine.execLaneEnable m lane value s
  | .loopbackSelect m lane value => Sys2Proof.Machine.execLoopbackSelect m lane value s
  | .prbsEnable m lane value => Sys2Proof.Machine.execPrbsEnable m lane value s
  | .txeqWrite m lane value => Sys2Proof.Machine.execTxeqWrite m lane value s
  | .laneAdaptDone lane scan => Sys2Proof.Machine.execLaneAdaptDone lane scan s
  | .hostMarker lane bits inPlace => Sys2Proof.Machine.execHostMarker lane bits inPlace s
  | .upstreamBlock lane bits => Sys2Proof.Machine.execUpstreamBlock lane bits s
  | .pauseRepeat n => Sys2Proof.Machine.execPauseRepeat n s
  | .downstreamMarker lane => Sys2Proof.Machine.execDownstreamMarker lane s
  | .laneLos lane => Sys2Proof.Machine.execLaneLos lane s
  | .laneTx lane => Sys2Proof.Machine.execLaneTx lane s
  | .eyeMonitorUpdate lane eye heye dfe => Sys2Proof.Machine.execEyeMonitorUpdate lane eye heye dfe s
  | .eyeLow lane => Sys2Proof.Machine.execEyeLow lane s
  | .laneRealigned lane => Sys2Proof.Machine.execLaneRealigned lane s
  | .hostTrafficWake n => Sys2Proof.Machine.execHostTrafficWake n s
  | .retryBackoffExpiry n => Sys2Proof.Machine.execRetryBackoffExpiry n s
  | .preparationDone n failing vref rext trims => Sys2Proof.Machine.execPreparationDone n failing vref rext trims s
  | .beaconFrame n => Sys2Proof.Machine.execBeaconFrame n s
  | .answerFrame n sync info => Sys2Proof.Machine.execAnswerFrame n sync info s
  | .beaconWindowExpiry n => Sys2Proof.Machine.execBeaconWindowExpiry n s
  | .phaseTimeout n => Sys2Proof.Machine.execPhaseTimeout n s
  | .attemptTimeout n => Sys2Proof.Machine.execAttemptTimeout n s
  | .upstreamSuperframeStart n => Sys2Proof.Machine.execUpstreamSuperframeStart n s
  | .trainingStatusBlock n tsb => Sys2Proof.Machine.execTrainingStatusBlock n tsb s
  | .downstreamTrainingDone n r => Sys2Proof.Machine.execDownstreamTrainingDone n r s
  | .codewordReceived n seq slot r arrival => Sys2Proof.Machine.execCodewordReceived n seq slot r arrival s
  | .downstreamServiceCodeword n msg roundTrip => Sys2Proof.Machine.execDownstreamServiceCodeword n msg roundTrip s
  | .fecLockLossTimeout n => Sys2Proof.Machine.execFecLockLossTimeout n s
  | .drainEnd n => Sys2Proof.Machine.execDrainEnd n s
  | .reqMapBuild n => Sys2Proof.Machine.execReqMapBuild n s
  | .playout n seq slot => Sys2Proof.Machine.execPlayout n seq slot s
  | .lossEpisodeEnd n => Sys2Proof.Machine.execLossEpisodeEnd n s
  | .loadWindowEnd n => Sys2Proof.Machine.execLoadWindowEnd n s
  | .freshnessTimeout n stream => Sys2Proof.Machine.execFreshnessTimeout n stream s
  | .marginUpdate n window => Sys2Proof.Machine.execMarginUpdate n window s
  | .slowPeriodExpiry n => Sys2Proof.Machine.execSlowPeriodExpiry n s
  | .heldUpdateTimeout n => Sys2Proof.Machine.execHeldUpdateTimeout n s
  | .activityStateChange n energy trained decisions => Sys2Proof.Machine.execActivityStateChange n energy trained decisions s
  | .crosstalkSourceValid src far => Sys2Proof.Machine.execCrosstalkSourceValid src far s
  | .crosstalkSourceInvalid src far => Sys2Proof.Machine.execCrosstalkSourceInvalid src far s
  | .shroudTrainTimeout n src far => Sys2Proof.Machine.execShroudTrainTimeout n src far s
  | .weakRetryTimeout n src far => Sys2Proof.Machine.execWeakRetryTimeout n src far s
  | .rampComplete n src far => Sys2Proof.Machine.execRampComplete n src far s
  | .keepTimeout n src far => Sys2Proof.Machine.execKeepTimeout n src far s
  | .leaveEnd n => Sys2Proof.Machine.execLeaveEnd n s
  | .glkSwitchWrite n => Sys2Proof.Machine.execGlkSwitchWrite n s
  | .oamTimeout n tag => Sys2Proof.Machine.execOamTimeout n tag s
  | .downshiftReevaluate n => Sys2Proof.Machine.execDownshiftReevaluate n s
  | .portIdleExpiry n => Sys2Proof.Machine.execPortIdleExpiry n s
  | .reef2TimerExpiry n => Sys2Proof.Machine.execReef2TimerExpiry n s
  | .refreshSuperframe n correctable rx => Sys2Proof.Machine.execRefreshSuperframe n correctable rx s
  | .wakeToneDetected n => Sys2Proof.Machine.execWakeToneDetected n s
  | .wakeToneEnd n => Sys2Proof.Machine.execWakeToneEnd n s
  | .autonegResolved n mode master eee oam => Sys2Proof.Machine.execAutonegResolved n mode master eee oam s
  | .linkStatusOk n rx errSq symbols => Sys2Proof.Machine.execLinkStatusOk n rx errSq symbols s
  | .linkStatusFail n => Sys2Proof.Machine.execLinkStatusFail n s
  | .standardTrainingFailure n => Sys2Proof.Machine.execStandardTrainingFailure n s
  | .stdFrameWake n => Sys2Proof.Machine.execStdFrameWake n s
  | .tc10SleepRequest n frameWaiting => Sys2Proof.Machine.execTc10SleepRequest n frameWaiting s
  | .tc10SleepAnswer n ack => Sys2Proof.Machine.execTc10SleepAnswer n ack s
  | .tc10WakePulse n => Sys2Proof.Machine.execTc10WakePulse n s
  | .lpiReceived n fromLine lpi => Sys2Proof.Machine.execLpiReceived n fromLine lpi s
  | .ppsEdge rising => Sys2Proof.Machine.execPpsEdge rising s
  | .ppsMiss => Sys2Proof.Machine.execPpsMiss s
  | .slewEnd => Sys2Proof.Machine.execSlewEnd s
  | .fsyncEdge rising => Sys2Proof.Machine.execFsyncEdge rising s
  | .rasterEdgeTimeout => Sys2Proof.Machine.execRasterEdgeTimeout s
  | .rasterHoldoverExpiry => Sys2Proof.Machine.execRasterHoldoverExpiry s
  | .rasterTakeover => Sys2Proof.Machine.execRasterTakeover s
  | .masterFrameStart => Sys2Proof.Machine.execMasterFrameStart s
  | .fsyncOutPulseEnd => Sys2Proof.Machine.execFsyncOutPulseEnd s
  | .portRasterTimeout n => Sys2Proof.Machine.execPortRasterTimeout n s
  | .rasterLockRetry n => Sys2Proof.Machine.execRasterLockRetry n s
  | .blankingOpen n => Sys2Proof.Machine.execBlankingOpen n s
  | .triggerCommandSend entry => Sys2Proof.Machine.execTriggerCommandSend entry s
  | .adaptStep entry => Sys2Proof.Machine.execAdaptStep entry s
  | .calStep entry => Sys2Proof.Machine.execCalStep entry s
  | .bistSlice entry failing => Sys2Proof.Machine.execBistSlice entry failing s
  | .reefEnter entry => Sys2Proof.Machine.execReefEnter entry s
  | .reefExit entry => Sys2Proof.Machine.execReefExit entry s
  | .trigOut entry => Sys2Proof.Machine.execTrigOut entry s
  | .modeSwitch entry => Sys2Proof.Machine.execModeSwitch entry s
  | .captureStart entry => Sys2Proof.Machine.execCaptureStart entry s
  | .timestamp entry => Sys2Proof.Machine.execTimestamp entry s
  | .calWaitExpiry entry => Sys2Proof.Machine.execCalWaitExpiry entry s
  | .calTempSample n celsius => Sys2Proof.Machine.execCalTempSample n celsius s
  | .calRunEnd n vref rext codes => Sys2Proof.Machine.execCalRunEnd n vref rext codes s
  | .reflectogramUpdate n => Sys2Proof.Machine.execReflectogramUpdate n s
  | .reflectCompareHourly n => Sys2Proof.Machine.execReflectCompareHourly n s
  | .shieldMeasure n power => Sys2Proof.Machine.execShieldMeasure n power s
  | .tdrComplete n echoes energy trained => Sys2Proof.Machine.execTdrComplete n echoes energy trained s
  | .ageMeasurement cycles => Sys2Proof.Machine.execAgeMeasurement cycles s
  | .plannerHourly n => Sys2Proof.Machine.execPlannerHourly n s
  | .scrubVisit x addr f => Sys2Proof.Machine.execScrubVisit x addr f s
  | .correctedRead x addr => Sys2Proof.Machine.execCorrectedRead x addr s
  | .uncorrectableAccess x addr a => Sys2Proof.Machine.execUncorrectableAccess x addr a s
  | .trackerWriteBack x addr => Sys2Proof.Machine.execTrackerWriteBack x addr s
  | .substitutionComplete x array row => Sys2Proof.Machine.execSubstitutionComplete x array row s
  | .pageReloadDone x ok => Sys2Proof.Machine.execPageReloadDone x ok s
  | .insvcPassTimer => Sys2Proof.Machine.execInsvcPassTimer s
  | .logicBistEnd n failing => Sys2Proof.Machine.execLogicBistEnd n failing s
  | .privTestStart ix => Sys2Proof.Machine.execPrivTestStart ix s
  | .privTestEnd ix failed src reader rows => Sys2Proof.Machine.execPrivTestEnd ix failed src reader rows s
  | .joinEnd => Sys2Proof.Machine.execJoinEnd s
  | .heartbeatSend => Sys2Proof.Machine.execHeartbeatSend s
  | .heartbeatReceived msg => Sys2Proof.Machine.execHeartbeatReceived msg s
  | .heartbeatLoss => Sys2Proof.Machine.execHeartbeatLoss s
  | .pwLaneTimeout => Sys2Proof.Machine.execPwLaneTimeout s
  | .confirmExpiry => Sys2Proof.Machine.execConfirmExpiry s
  | .pairHoldReevaluate => Sys2Proof.Machine.execPairHoldReevaluate s
  | .pairEnable m value => Sys2Proof.Machine.execPairEnable m value s
  | .hostSignalDetect lane => Sys2Proof.Machine.execHostSignalDetect lane s
  | .blockLockChange lane locked inverted => Sys2Proof.Machine.execBlockLockChange lane locked inverted s
  | .stdOamMessage n msg => Sys2Proof.Machine.execStdOamMessage n msg s
  | .tc10SleepTimeout n => Sys2Proof.Machine.execTc10SleepTimeout n s
  | .perstNRelease => Sys2Proof.Machine.execPerstNRelease s
  | .pcieRefReturn => Sys2Proof.Machine.execPcieRefReturn s
  | .pointOfNoReturn ratio lost => Sys2Proof.Machine.execPointOfNoReturn ratio lost s
  | .forecastLeadReached n => Sys2Proof.Machine.execForecastLeadReached n s
  | .bufferReadCompletion h data failOffset => Sys2Proof.Machine.execBufferReadCompletion h data failOffset s
  | .flashWriteDone ok => Sys2Proof.Machine.execFlashWriteDone ok s

end Sys2Proof.Machine
end

