-- ==== Sys2Proof/Safety.lean ====
section
/-! DEFINITION. The terms the claims use: the safe states, in which the ports rest in the modes that hold them DOWN and the
pins stand at what their rules give; the row of a command; what has left the block; and the records, read byte by byte. -/
namespace Sys2Proof.Machine

/-- R34: in the modes that hold the ports, every port is DOWN, FENCED or RETIRED. -/
def Dev.portsRest (d : Dev) : Bool := !forcesDown d.sys.mode || allPorts.all fun n => portResting (d.port n).link.st

/-- R30, R294, R404, R523: the pins follow their rules. FSYNC_OUT stands at the level of the pulse, which needs a mode of
Halyard, a raster and an OUT_MODE of pulses. -/
def Dev.pinsRight (d : Dev) : Bool :=
  d.pins.faultN == faultNLevel d && d.pins.sbIrqN == !(sbPending d.mbxS || sbPending d.mbxN) &&
  d.pins.fsyncOut == d.hal.fsyncHigh && (!d.pins.fsyncOut || (fsyncMode d.sys.mode && d.raster.set && decide (fld d.hal.fsyncCfg 15 14 < 2)))

abbrev State.safe (s : State) : Prop := (s.dev.portsRest && s.dev.pinsRight) = true

/-- The master may write all of the registers (R382, R385) and CORE is not on the RC oscillator, on which these registers refuse
every frame (R466). -/
def mayWrite (s : State) (m : Master) : Bool := reachesAll m && s.dev.clk.coreSrc != 2

/-! ### Commands of the rings -/

/-- The row of the table that a command of R346 is. -/
def rowOf (x : CmdHdr) : Cmd → Instr
  | .nop echo => .nop x echo
  | .portConfig p v w => .portConfig x p v w
  | .portUp p => .portUp x p
  | .portDown p => .portDown x p
  | .portIsolate p => .portIsolate x p
  | .portStatus p => .portStatus x p
  | .oamSend p t len b => .oamSend x p t len b
  | .diagTdr p => .diagTdr x p
  | .diagSignature p op a => .diagSignature x p op a
  | .capture p src st len a => .capture x p src st len a
  | .calRun m => .calRun x m
  | .bistRun t m tests => .bistRun x t m tests
  | .schedule trig a m rep time arg => .schedule x trig a m rep time arg
  | .cancel h => .cancel x h
  | .laneSpare p l => .laneSpare x p l
  | .configLoad o len a => .configLoad x o len a
  | .configCommit => .configCommit x
  | .fwStage i last o len a => .fwStage x i last o len a
  | .fwActivate i => .fwActivate x i
  | .timeSet m c v => .timeSet x m c v
  | .rasterSet r => .rasterSet x r
  | .faultAck src => .faultAck x src
  | .faultForce src l => .faultForce x src l
  | .countersRead p set_ a => .countersRead x p set_ a
  | .atticSetup p j period a => .atticSetup x p j period a
  | .dumpSetup size a => .dumpSetup x size a
  | .sleep t => .sleep x t

/-- The device takes a command from its ring and refuses it for no reason of R345; the handle table has room for it (R341), and it
starts at once. -/
def takes (s : State) (x : CmdHdr) (c : Cmd) : Bool :=
  (s.dev.portsRest && s.dev.pinsRight) && powered s.dev && canFetch s.dev x.fn x.ring && (refusal s.dev x.fn [] c).isNone &&
  decide (s.dev.host.ops.length < 65535) && !x.fence

/-- The STATUS with which an operation has ended; none while it is open or unknown. -/
def endedWith (s : State) (h : W16) : Option W16 :=
  match findOp s.dev h with
  | some o => o.final.map (·.status)
  | none => none

/-- An operation is live and has not ended. -/
def openWith (s : State) (h : W16) (c : Cmd) : Bool :=
  match findOp s.dev h with
  | some o => o.cmd == c && o.final.isNone
  | none => false

/-- Function f has stopped between two states, and nothing else has: no ring of it runs, no operation,
calendar entry or lock of it is left, and the other function, the ports, the lanes and the clocks go on (R328, R396). -/
abbrev stopsFn (s t : State) (f : Fn) : Prop :=
  anyRing (t.dev.fn f) = false ∧ (∀ o ∈ t.dev.host.ops, o.fn ≠ f) ∧
  (∀ e ∈ t.dev.hal.cal, ∀ o ∈ s.dev.host.ops, o.fn = f → e.handle ≠ o.handle ∨ o.handle = 0xFFFF) ∧
  (∀ i, lockOwner t.dev.acc i = if (lockOwner s.dev.acc i).toNat = (Fn.master f).code then 0 else lockOwner s.dev.acc i) ∧
  (∀ g, g ≠ f → t.dev.fn g = s.dev.fn g) ∧ (∀ n, (t.dev.port n).link = (s.dev.port n).link) ∧
  (f = .pf0 → t.dev.flt.halt.region = none ∧ ∀ n, (t.dev.port n).attic.on = false) ∧
  (∀ m, ((s.dev.lane m).target = none → t.dev.lane m = s.dev.lane m) ∧ (t.dev.lane m).cfg = (s.dev.lane m).cfg ∧
    (t.dev.lane m).port = (s.dev.lane m).port) ∧ t.dev.clk = s.dev.clk ∧
  t.dev.sys = s.dev.sys ∧ t.dev.out = s.dev.out

/-! ### What reaches a lane -/

/-- The ports are as they were, but for the PAUSE state of a lane that takes another coding (R279). -/
abbrev portsBut (s t : State) : Prop :=
  ∀ n, t.dev.port n = { s.dev.port n with up := (t.dev.port n).up } ∧ (t.dev.port n).up.blocks = (s.dev.port n).up.blocks

/-- The sources of a lane that lead to sparing (R266). -/
def sparesLane (src : BitVec 10) : Bool :=
  match srcScope src with
  | some (.lane _) => decide (srcBit src < 3)
  | _ => false


/-- A marker on the wire, from its comma on; bits 20 to 79 are stuffed (R242, R245). -/
def markerWire (inv : Bool) (w : BitVec 60) : List Bool :=
  flipBits inv (wordBits byhamComma ++ (stuffRun (wordBits w) false 2).1)

/-- A block on the wire as a host whose scrambler and run stand with the receiver's sends it, without fill words before it (R241,
R242, R250). -/
def blockWire (l : LaneSt) (b : BitVec 65) : List Bool :=
  flipBits l.rxInv
    (if l.coding == 1 then (stuffRun (laneScramble (blockBits b) l.rxScr).1 l.rxLast l.rxRun).1 else (put66 b l.rxScr).1)

/-! ### A margin window -/

/-- The port after the clocks of a window, and the margin that the window measured (R117, R142). -/
def windowPort (s : State) (n : Fin 16) (w : List RxClock) : Port := (rxRun s.dev n w).1

def windowMargin (s : State) (n : Fin 16) (w : List RxClock) : Int :=
  (s16 (marginOf (s.dev.port n).link.mode (rxRun s.dev n w).2.errSq (rxRun s.dev n w).2.count 78)).toInt

/-! ### What leaves the block -/

/-- What has left the block between two states, newest first. -/
def sent (s t : State) : List Output := t.dev.out.take (t.dev.out.length - s.dev.out.length)

/-- k bytes of a record from byte o, little-endian (R6). -/
def recFld (b : List W8) (o k : Nat) : Nat := ofLe ((b.drop o).take k)

/-- A completion of R338 to a function: CMD_TAG, HANDLE, STATUS, KIND, RESULT0 and RESULT1. -/
def isCompletion (f : Fn) (tag handle status : W16) (kind : Nat) (r0 r1 : W32) : Output → Bool
  | .memWrite g _ b =>
    g == f && b.length == 32 && recFld b 0 2 == tag.toNat && recFld b 2 2 == handle.toNat && recFld b 4 2 == status.toNat &&
    recFld b 6 1 / 16 == kind && recFld b 12 4 == r0.toNat && recFld b 28 4 == r1.toNat
  | _ => false

/-- An event record of R355 to a function: TYPE and SCOPE. -/
def isEvent (f : Fn) (type scope : Nat) : Output → Bool
  | .memWrite g _ b => g == f && b.length == 64 && recFld b 0 2 == type && recFld b 3 1 == scope
  | _ => false

/-- A write of a length to an address of host memory. -/
def isWrite (f : Fn) (addr : W64) (len : Nat) : Output → Bool
  | .memWrite g a b => g == f && a == addr && b.length == len
  | _ => false

def isSchedule : Cmd → Bool
  | .schedule .. => true
  | _ => false

/-- An entry has not fired ahead of its row, and no other entry is to fire in its tick and take effect before it (R306). -/
def firesAlone (d : Dev) (e : CalEntry) : Bool :=
  !e.ahead && d.hal.cal.all fun x => !((entryTick d e).isSome && goesBefore x e && entryTick d x == entryTick d e)

/-- A request that waited in H2D has been read and answered to its writer, with a STATUS and a RESULT (R402). -/
def replied (s t : State) (b : Box) (status result : Nat) : Bool :=
  !(mbx t.dev b).h2dFull &&
  (mbx t.dev b).held == (mbx s.dev b).held ++ [(replyWord (mbx s.dev b).h2d status result, (mbx s.dev b).wrSrc)]

/-- A request of a TYPE waits, and the manager runs. -/
def requested (s : State) (b : Box) (type : Nat) : Bool :=
  (s.dev.portsRest && s.dev.pinsRight) && powered s.dev && s.dev.sys.mgrUp && !s.dev.boot.noImage && (mbx s.dev b).h2dFull &&
  wordType (mbx s.dev b).h2d == type

end Sys2Proof.Machine
end

