-- ==== Sys2Proof/WellFormed.lean ====
section
/-! DEFINITION. Well-formed commands: the operands that some writer of the rules could give. A command with another one changes
nothing (assumption 1). -/
namespace Sys2Proof

open Sys2Proof.Machine

/-- The bounds of R91, R117, R193, R326, R382, R541, R581 and R586 on what a command carries. -/
def Instr.wf : Instr → Bool
  | .registerWrite a size _ => accessOk a size
  | .rcRead a size => accessOk a size
  | .preparationDone _ failing _ _ trims => prepOk failing trims
  | .downstreamTrainingDone _ r => decide (r.ntap.toNat ≤ 24) && r.taps.length == 24
  | .calRunEnd _ _ _ codes => codes.length == trimCount
  | .ageMeasurement cycles => cycles.length == 24
  | .scrubVisit x addr f => decide (addr < memBytes x) && (match f with | .uncorrectable c => contentFits x c | _ => true)
  | .correctedRead x addr => decide (addr < memBytes x)
  | .uncorrectableAccess x addr a => decide (addr < memBytes x) && accessFits x a
  | .trackerWriteBack x addr => decide (addr < memBytes x)
  | .substitutionComplete x _ _ => memValid x
  | .pageReloadDone x _ => memValid x
  | .privTestEnd _ _ _ _ rows => rows.all sramRow
  | _ => true

end Sys2Proof
end

