-- ==== Sys2Proof/Certificates/Slice0/Obligations.lean ====
section
/-! DEFINITION. What is claimed of the block, one definition per claim. A statement that names what an implementation or the
model chooses says so; every other one formalises rules of the manual. -/

open Sys2Proof Sys2Proof.Machine

/-! ### The queue, the step, reset, and what every command keeps -/

/-- A step takes the command at the front of the queue and runs it on the rest. -/
def Obligations.stepRunsFront : Prop :=
  ∀ (c : Instr) (rest : List Instr) (s : State), s.pending = c :: rest → step s = exec c { s with pending := rest }

/-- The model's choice (assumption 3): on an empty queue a step is one tick of device time, which advances by 1 where DT runs from a
locked LPLL without a rate adjustment (R280, R282), and nothing else changes. -/
def Obligations.emptyQueueTicks : Prop :=
  ∀ s : State, s.pending = [] →
    ((s.dev.dt.running = false ∨ powered s.dev = false) → step s = .next s) ∧
    (s.dev.dt.running = true → powered s.dev = true → s.dev.clk.lpll = .locked → s.dev.dt.adj = 0 → s.dev.dt.slew = 0 →
      0 ≤ s.dev.dt.rest → s.dev.dt.rest < 1000000000 →
      step s = .next { s with dev := { s.dev with dt := { s.dev.dt with dt := s.dev.dt.dt + 1 } } })

/-- Every command completes, with the queue as it was, in a safe state. One with an operand that no writer of the rules could give
changes nothing in a safe state (the model's choice, assumption 1). Readings that are the choice of the model: assumption 1. -/
def Obligations.wellFormedCompletes : Prop :=
  ∀ (c : Instr) (s : State),
    (∃ t, exec c s = .next t ∧ t.pending = s.pending ∧ t.safe) ∧ (s.safe → c.wf = false → exec c s = .next s)

/-- R30, R34, R294, R404, R523: A step from a safe state ends in a safe state, whatever the command. -/
def Obligations.safeKept : Prop :=
  ∀ s t : State, s.safe → step s = .next t → t.safe

/-- The reset state is safe, with no command waiting; the device is in OFF, every port is DOWN, DT stands at 0 and does not run,
every ring is disabled, no fault is raised, and FAULT_N is asserted (R30, R282, R429). Readings that are the choice of the
model: assumption 9. -/
def Obligations.resetState : Prop :=
  State.reset.safe ∧ State.reset.pending = [] ∧ State.reset.dev.sys.mode = .off ∧
  (∀ n, (State.reset.dev.port n).link.st = .down) ∧ State.reset.dev.dt.dt = 0 ∧ State.reset.dev.dt.running = false ∧
  anyRing (State.reset.dev.fn .pf0) = false ∧ anyRing (State.reset.dev.fn .pf1) = false ∧ anyRaisedAt State.reset.dev.flt 0 = false ∧
  State.reset.dev.pins.faultN = false

/-- R34, R523: What the end of a command does to the block. In a safe block nothing; in a mode that lets ports run, only the pins
and the message of FAULT_N; in every mode, nothing of the registers of the other blocks. Readings that are the choice of the
model: assumptions 15, 16. -/
def Obligations.endOfCommand : Prop :=
  (∀ s : State, s.safe → settle s.dev = s.dev) ∧
  (∀ d : Dev, forcesDown d.sys.mode = false → (settle d).ports = d.ports ∧ (settle d).lanes = d.lanes ∧ (settle d).flt = d.flt) ∧
  (∀ d : Dev, (settle d).sys = d.sys ∧ (settle d).clk = d.clk ∧ (settle d).pwr = d.pwr ∧ (settle d).dt = d.dt ∧
    (settle d).acc = d.acc ∧ (settle d).boot = d.boot ∧ (settle d).mem = d.mem ∧ (settle d).pair = d.pair) ∧
  (∀ d : Dev, d.sys.mode = .run ∨ d.sys.mode = .reef →
    ((settle d).pins.faultN = false ↔ anyRaisedAt d.flt (fld d.flt.cfg 1 0) = true))

/-! ### Reset and boot -/

/-- R31, R417, R429, R430, R448: PORST_N asserted, and the loss of an always-on supply, take the device to OFF from any state, every
register at its Reset column. What stays is outside the block: the flash, the OTP, the level of PERST_N, and what has left it.
The release of PORST_N takes OFF to BOOT, samples the straps and makes the strapped reference active; the ports stay DOWN with
their factory trims. In every other mode it changes nothing. The privileged device reset, which the manager and PF0 reach,
enters BOOT with every port DOWN, keeps the straps, the snapshots of the Cellar and the restarts counted, and frees every
handle; another key, or another master, changes nothing. Readings that are the choice of the model: assumptions 12, 14, 25, 115. -/
def Obligations.resets : Prop :=
  (∀ (s t : State), t = { s with dev := { ({} : Dev) with
         boot := { flash := s.dev.boot.flash, otpSvn := s.dev.boot.otpSvn },
         bist := { fused := s.dev.bist.fused }, host := { perst := s.dev.host.perst },
         out := s.dev.out, free := s.dev.free } } →
       exec .porstNAssert s = .next t ∧ exec .aonSupplyLoss s = .next t) ∧
  (∀ (s : State) (straps : Straps) (flash : Option Flash),
       (s.dev.sys.mode = .off →
         ∃ t, exec (.porstNRelease straps flash) s = .next t ∧ t.dev.sys.mode = .boot ∧ t.dev.boot.strap = straps ∧
           t.dev.clk.refAct = (if straps.refsel then .refclk else .xtal) ∧ t.dev.pins.faultN = false ∧
           t.dev.dt = s.dev.dt ∧ t.dev.acc = s.dev.acc ∧ t.dev.pair = s.dev.pair) ∧
       (s.safe → s.dev.sys.mode ≠ .off → exec (.porstNRelease straps flash) s = .next s)) ∧
  (∀ (s : State) (m : Master) (key : W16), powered s.dev = true →
       ((m = .mgr ∨ m = .pf0) → key = 0x5A5A →
         ∃ t, exec (.privilegedDeviceReset m key) s = .next t ∧ t.dev.sys.mode = .boot ∧
           t.dev.boot.strap = s.dev.boot.strap ∧ t.dev.host.ops = [] ∧ t.dev.sys.restarts = s.dev.sys.restarts ∧
           ∀ n, (t.dev.port n).link.st = .down ∧ (t.dev.port n).snap = (s.dev.port n).snap) ∧
       (s.safe → key ≠ 0x5A5A ∨ m = .pf1 ∨ m = .sb → exec (.privilegedDeviceReset m key) s = .next s))

/-- R282, R456, R457, R458, R459, R460, R461, R468, R475: The start of the clocks. The start-up delay of the primary reference ends,
the reference qualifies and LPLL acquires it, LPLL locks and DT counts with COARSE clear, and HPLL locks on it. An LPLL that
locks while another candidate comes first slews toward that one. The requests of the clocks, which the manager and PF0 make and
another master cannot. A resume is refused, and changes nothing, unless a reference is qualified, both PLLs have locked and 256
µs are over without a decision; then SAFE after a trip ends. With AUTO_RESUME the end of those 256 µs ends it without a request.
The move to the primary needs it qualified. ALT_EN keeps an alternate that is active with the primary not qualified. Readings
that are the choice of the model: assumptions 136, 137. -/
def Obligations.clockStart : Prop :=
  (∀ s : State, s.safe → s.dev.sys.mode = .boot →
       (exec (.startUpDelayExpiry (primary s.dev)) s =
         .next { s with dev := { s.dev with clk := { s.dev.clk with priStarted := true } } }) ∧
       (s.dev.clk.priStarted = true → s.dev.clk.lpll = .off → s.dev.clk.refAct = primary s.dev →
         fld s.dev.clk.lpllCfg 31 30 = 0 →
         ∃ t, exec (.sourceQualified (.ref (primary s.dev))) s = .next t ∧ t.dev.clk.priQual = true ∧
           t.dev.clk.lpll = .acquire ∧ t.dev.clk.lpllIn = some (.ref (primary s.dev)) ∧ t.dev.sys = s.dev.sys ∧
           t.dev.ports = s.dev.ports ∧ t.dev.dt = s.dev.dt) ∧
       (s.dev.clk.lpll = .acquire →
         ∃ t, exec .lpllLock s = .next t ∧
           (firstCand s.dev = none ∨ firstCand s.dev = s.dev.clk.lpllIn →
             t.dev.clk.lpll = .locked ∧ t.dev.clk.lpllIn = s.dev.clk.lpllIn) ∧
           (firstCand s.dev ≠ none → firstCand s.dev ≠ s.dev.clk.lpllIn →
             t.dev.clk.lpll = .slew ∧ t.dev.clk.lpllIn = firstCand s.dev) ∧
           t.dev.clk.coreSrc = 0 ∧ t.dev.dt.running = true ∧
           (s.dev.dt.running = false → t.dev.dt.dt = s.dev.dt.dt ∧ t.dev.dt.coarse = false) ∧ t.dev.sys = s.dev.sys ∧
           ((∀ n, (s.dev.port n).raster.startDue = false) → t.dev.ports = s.dev.ports)) ∧
       (s.dev.clk.hpll = .acquire → s.dev.clk.lpll = .locked →
         ∃ t, exec .hpllLock s = .next t ∧ t.dev.clk.hpll = .locked ∧ t.dev.clk.lpll = .locked ∧ t.dev.sys = s.dev.sys ∧
           t.dev.dt = s.dev.dt ∧ t.dev.ports = s.dev.ports)) ∧
  (∀ (s : State) (m : Master) (v : W32), s.safe → powered s.dev = true →
       (reachesAll m = false → exec (.resume m) s = .next s ∧ exec (.refPri m) s = .next s ∧ exec (.altEnSet m) s = .next s ∧
         exec (.altEnClear m) s = .next s ∧ exec (.lpllCandidateChange m v) s = .next s) ∧
       (s.dev.clk.lpll = .holdover → s.dev.clk.holdTimer = true → s.dev.clk.refAct = primary s.dev → s.dev.clk.priStarted = true →
         s.dev.clk.priQual = true → (group s.dev (.device 1)).raised = 0 →
         ∃ t, exec .holdoverTimeout s = .next t ∧ t.dev.clk.holdTimer = false ∧ t.dev.clk.lpll = .slew ∧
           t.dev.clk.lpllIn = some (.ref (primary s.dev)) ∧ t.dev.sys = s.dev.sys ∧ t.dev.ports = s.dev.ports) ∧
       (canResume s.dev = false → exec (.resume m) s = .next s) ∧
       (locksHold s.dev = false → exec .clockResume s = .next s) ∧
       (locksHold s.dev = true → bit s.dev.clk.cfg 31 = true → s.dev.sys.safeByFence = false → s.dev.flt.halt.halted = false →
         ∃ t, exec .clockResume s = .next t ∧ t.dev.sys.mode = (if s.dev.sys.safeToHold then .hold else .run)) ∧
       (reachesAll m = true → canResume s.dev = true → s.dev.sys.safeByFence = false → s.dev.flt.halt.halted = false →
         ∃ t, exec (.resume m) s = .next t ∧ t.dev.sys.mode = (if s.dev.sys.safeToHold then .hold else .run)) ∧
       (bit s.dev.clk.cfg 31 = false → exec .clockResume s = .next s) ∧
       (s.dev.clk.priQual = false ∨ s.dev.clk.refAct = primary s.dev → exec (.refPri m) s = .next s) ∧
       (reachesAll m = true → s.dev.clk.priQual = true → s.dev.clk.refAct ≠ primary s.dev →
         ∃ t, exec (.refPri m) s = .next t ∧ t.dev.clk.refAct = primary s.dev ∧ t.dev.sys = s.dev.sys ∧
           t.dev.ports = s.dev.ports ∧ t.dev.dt = s.dev.dt) ∧
       (reachesAll m = true →
         exec (.altEnSet m) s = .next { s with dev := { s.dev with clk := { s.dev.clk with cfg := s.dev.clk.cfg ||| 0x4000_0000 } } } ∧
         ∃ t, exec (.altEnClear m) s = .next t ∧ bit t.dev.clk.cfg 30 = false ∧ t.dev.sys = s.dev.sys ∧
           t.dev.ports = s.dev.ports ∧
           (s.dev.clk.refAct ≠ primary s.dev → s.dev.clk.priQual = false → t.dev.clk.refAct = s.dev.clk.refAct ∧
             t.dev.clk.altStarted = s.dev.clk.altStarted) ∧
           (s.dev.clk.refAct = primary s.dev ∨ s.dev.clk.priQual = true → t.dev.clk.refAct = primary s.dev ∧
             t.dev.clk.altStarted = false)) ∧
       (reachesAll m = true →
         ∃ t, exec (.lpllCandidateChange m v) s = .next t ∧ t.dev.clk.lpllCfg = v &&& 0xFC0F_0000 ∧ t.dev.dt = s.dev.dt ∧
           (isRaised s.dev 0x012 = false → t.dev.sys = s.dev.sys)))

/-- R31, R32, R430, R434, R435, R436, R448: With BOOTSRC = 0b00 the ROM boots the slots that the boot record names where both images
are accepted: the key and the signature are right and SVN is not below the minimum in OTP. With no acceptable manager image in
either slot the device stays in BOOT and no firmware runs. The end of a boot. With BOOTSRC = 0b11 the device enters HOLD with
the error code 0x0D, and SAFE in its place while a device-scope source is raised at FENCE; without a qualified clock the boot
waits. With an image in flash that passes every check, and no such source once it is applied, the device enters RUN. Readings
that are the choice of the model: assumptions 25, 26, 125, 134. -/
def Obligations.bootCourse : Prop :=
  (∀ (s : State) (a p : FwImage), s.safe → s.dev.sys.mode = .boot → s.dev.clk.lpll = .locked → s.dev.clk.hpll = .locked →
       s.dev.boot.verified = false → s.dev.boot.noImage = false → s.dev.boot.strap.bootsrc = 0 →
       (fwImage s.dev.boot.flash .mgr (bootRecord s.dev.boot.flash).mgrSlot = some a →
         fwImage s.dev.boot.flash .pc (bootRecord s.dev.boot.flash).pcSlot = some p →
         a.keyOk = true → a.sigOk = true → s.dev.boot.otpSvn ≤ a.svn → p.keyOk = true → p.sigOk = true → s.dev.boot.otpSvn ≤ p.svn →
         ∃ t, exec .firmwareVerify s = .next t ∧ t.dev = { s.dev with boot := t.dev.boot } ∧ t.dev.boot.verified = true ∧
           t.dev.boot.mgrSlot = (bootRecord s.dev.boot.flash).mgrSlot ∧ t.dev.boot.pcSlot = (bootRecord s.dev.boot.flash).pcSlot ∧
           t.dev.boot.mgrSvn = a.svn ∧ t.dev.boot.pcSvn = p.svn ∧ t.dev.boot.flash = s.dev.boot.flash) ∧
       (s.dev.boot.flash.mgrA = none → s.dev.boot.flash.mgrB = none →
         ∃ t, exec .firmwareVerify s = .next t ∧ t.dev.sys.mode = .boot ∧ t.dev.boot.noImage = true ∧ t.dev.boot.verified = false)) ∧
  (∀ (s : State) (l : List Section), s.dev.sys.mode = .boot → s.dev.boot.verified = true → s.dev.sys.mgrUp = false →
       (s.safe → lpllRuns s.dev.clk = false ∨ s.dev.clk.hpll ≠ .locked → exec .endOfBoot s = .next s) ∧
       (lpllRuns s.dev.clk = true → s.dev.clk.hpll = .locked →
       (s.dev.boot.strap.bootsrc = 3 → devFenced s.dev = false → s.dev.flt.halt.halted = false →
         ∃ t, exec .endOfBoot s = .next t ∧ t.dev.sys.mode = .hold ∧ t.dev.sys.mgrUp = true ∧ t.dev.cfg.err = 0x0D) ∧
       (s.dev.boot.strap.bootsrc = 3 → devFenced s.dev = true →
         ∃ t, exec .endOfBoot s = .next t ∧ t.dev.sys.mode = .safe ∧ t.dev.sys.safeByFence = true ∧ t.dev.sys.mgrUp = true) ∧
       (s.dev.boot.strap.bootsrc ≠ 3 →
         validate { s.dev with sys := { s.dev.sys with mgrUp := true } } s.dev.boot.flash.config = .ok l →
         devFenced (takeImage { s.dev with sys := { s.dev.sys with mgrUp := true } } s.dev.boot.flash.config l srcFlash) = false →
         (takeImage { s.dev with sys := { s.dev.sys with mgrUp := true } } s.dev.boot.flash.config l srcFlash).flt.halt.halted = false →
         ∃ t, exec .endOfBoot s = .next t ∧ t.dev.sys.mode = .run)))

/-! ### The host port and the rings -/

/-- R328, R329, R396, R514: A Function Level Reset, a clear of Bus Master Enable and an entry to D3hot stop the function. All its
rings are disabled, none of its operations and of the calendar entries that they own remains, its locks are free, and the other
function's rings, the link state of every port, the lanes that no spare move waits for and the clocks are as they were; no
record is written. When PF0 stops, the Attic rings stop and the dump region is dropped. PERST_N stops both functions, and their
configuration space with the MSI-X tables goes to its reset state; the ports, device time and the fault registers go on. Its
release, where it is no wake, only ends it. Where the PCIe link leaves L0 while a ring is enabled, PCIE_LINK is raised and
counted (with a forced occurrence of its tick, as one); with no ring enabled nothing happens. Readings that are the choice of
the model: assumptions 34, 56. -/
def Obligations.functionsStop : Prop :=
  (∀ (s : State) (f : Fn), s.safe → powered s.dev = true →
       (∃ t, exec (.functionLevelReset f) s = .next t ∧ t.dev.fn f = {} ∧ stopsFn s t f) ∧
       (∃ t, exec (.busMasterEnableClear f) s = .next t ∧ stopsFn s t f) ∧
       (∃ t, exec (.d3hotEntry f) s = .next t ∧ stopsFn s t f)) ∧
  (∀ s : State, s.safe →
       (powered s.dev = true →
         ∃ t, exec .perstNAssert s = .next t ∧ t.dev.host.perst = true ∧
           (∀ f, anyRing (t.dev.fn f) = false ∧ ∀ v : Fin 64, (t.dev.fn f).msix[v.val] = {}) ∧ t.dev.host.ops = [] ∧
           (∀ n, (t.dev.port n).link = (s.dev.port n).link) ∧ t.dev.dt.dt = s.dev.dt.dt ∧ t.dev.dt.running = s.dev.dt.running ∧
           t.dev.flt.port = s.dev.flt.port ∧ t.dev.flt.dev = s.dev.flt.dev ∧ t.dev.sys = s.dev.sys) ∧
       (s.dev.sys.mode = .run → s.dev.avs.deepStep = 0 →
         ∃ t, exec .perstNRelease s = .next t ∧
           t.dev = { s.dev with host := { s.dev.host with perst := false }, sys := { s.dev.sys with wakeAt := t.dev.sys.wakeAt } })) ∧
  (∀ s : State, powered s.dev = true →
       (anyRing s.dev.host.pf0 = true ∨ anyRing s.dev.host.pf1 = true → isLive s.dev 0x050 = false →
         ∃ t, exec .pcieLinkDown s = .next t ∧ t.dev.clk = s.dev.clk ∧ t.dev.pwr = s.dev.pwr ∧ t.dev.mem = s.dev.mem ∧
           t.dev.flt.total = if (twinOcc s.dev 0x050 false).isSome then s.dev.flt.total else satInc s.dev.flt.total) ∧
       (s.safe → anyRing s.dev.host.pf0 = false → anyRing s.dev.host.pf1 = false → exec .pcieLinkDown s = .next s))

/-- R27, R331, R335: An SQ doorbell. On a running ring a value below the depth becomes the producer index; while the manager is down
the value is held; a ring that does not run ignores it; a value of the depth or more stops the ring with CAUSE 1. Nothing but
the rings and what leaves the block changes. A CQ doorbell moves the consumer index as far as the producer index; past it, or at
the depth or more, the ring stops with CAUSE 1. The event doorbell, as the CQ doorbell. -/
def Obligations.doorbells : Prop :=
  (∀ (s : State) (f : Fn) (k : Fin 16) (v : W16), s.safe → powered s.dev = true →
       ((s.dev.fn f).sq[k.val].st ≠ .run → exec (.sqDoorbell f k v) s = .next s) ∧
       ((s.dev.fn f).sq[k.val].st = .run → s.dev.sys.mgrUp = true → v.toNat < ringDepth (s.dev.fn f).sq[k.val].cfg →
         exec (.sqDoorbell f k v) s = .next { s with dev := modSq s.dev f k fun r => { r with prod := v } }) ∧
       ((s.dev.fn f).sq[k.val].st = .run → s.dev.sys.mgrUp = false →
         exec (.sqDoorbell f k v) s = .next { s with dev := modSq s.dev f k fun r => { r with held := some v } }) ∧
       ((s.dev.fn f).sq[k.val].st = .run → s.dev.sys.mgrUp = true → ringDepth (s.dev.fn f).sq[k.val].cfg ≤ v.toNat →
         ∃ t, exec (.sqDoorbell f k v) s = .next t ∧ (t.dev.fn f).sq[k.val].st = .error ∧ (t.dev.fn f).sq[k.val].cause = 1 ∧
           (t.dev.fn f).sq[k.val].prod = (s.dev.fn f).sq[k.val].prod ∧
           t.dev = { s.dev with host := t.dev.host, out := t.dev.out })) ∧
  (∀ (s : State) (f : Fn) (k : Fin 16) (v : W16), s.safe → powered s.dev = true → s.dev.sys.mgrUp = true →
       ((s.dev.fn f).cq[k.val].st ≠ .run → exec (.cqDoorbell f k v) s = .next s) ∧
       ((s.dev.fn f).cq[k.val].st = .run → v.toNat < ringDepth (s.dev.fn f).cq[k.val].cfg →
         (s.dev.fn f).cq[k.val].cons ≤ v → v ≤ (s.dev.fn f).cq[k.val].prod →
         (s.dev.fn f).cq[k.val].prod.toNat < ringDepth (s.dev.fn f).cq[k.val].cfg →
         exec (.cqDoorbell f k v) s = .next { s with dev := modCq s.dev f k fun r => { r with cons := v } }) ∧
       ((s.dev.fn f).cq[k.val].st = .run →
         ringDepth (s.dev.fn f).cq[k.val].cfg ≤ v.toNat ∨
           (s.dev.fn f).cq[k.val].cons ≤ (s.dev.fn f).cq[k.val].prod ∧ (s.dev.fn f).cq[k.val].prod < v →
         ∃ t, exec (.cqDoorbell f k v) s = .next t ∧ (t.dev.fn f).cq[k.val].st = .error ∧ (t.dev.fn f).cq[k.val].cause = 1 ∧
           t.dev = { s.dev with host := t.dev.host, out := t.dev.out })) ∧
  (∀ (s : State) (f : Fn) (v : W16), s.safe → powered s.dev = true →
       ((s.dev.fn f).ev.st ≠ .run → exec (.eventDoorbell f v) s = .next s) ∧
       ((s.dev.fn f).ev.st = .run → s.dev.sys.mgrUp = true → v.toNat < ringDepth (s.dev.fn f).ev.cfg →
         (s.dev.fn f).ev.cons ≤ v → v ≤ (s.dev.fn f).ev.prod → (s.dev.fn f).ev.prod.toNat < ringDepth (s.dev.fn f).ev.cfg →
         exec (.eventDoorbell f v) s = .next { s with dev := modEv s.dev f fun r => { r with cons := v } }) ∧
       ((s.dev.fn f).ev.st = .run → s.dev.sys.mgrUp = false →
         exec (.eventDoorbell f v) s = .next { s with dev := modEv s.dev f fun r => { r with held := some v } }) ∧
       ((s.dev.fn f).ev.st = .run → s.dev.sys.mgrUp = true → ringDepth (s.dev.fn f).ev.cfg ≤ v.toNat →
         ∃ t, exec (.eventDoorbell f v) s = .next t ∧ (t.dev.fn f).ev.st = .error ∧ (t.dev.fn f).ev.cause = 1 ∧
           t.dev = { s.dev with host := t.dev.host, out := t.dev.out }))

/-- R330, R331, R333, R336, R368, R370, R372, R374: A write with EN = 1 to a disabled ring starts it, with both indices 0, the phase
of the first lap 1 and EN set, when DEPTH is 0 to 10; a reserved DEPTH leaves EN at 0, STATE ERROR and CAUSE 3. Nothing but the
ring's own registers changes. A write with EN = 0 takes a ring to OFF. The operations that a submission ring started stay; those
that have ended and wait for a disabled completion ring are released. The coalescing timer sends the message of a ring that has
written completions since its last message; an unmasked vector sends the message that waited. A masked vector only keeps it
pending. Readings that are the choice of the model: assumptions 13, 42, 43, 182. -/
def Obligations.hostRings : Prop :=
  (∀ (s : State) (f : Fn) (kind : RingKind) (k : Fin 16) (cfg : W32), s.safe → powered s.dev = true →
       bit (s.dev.fn f).sq[k.val].cfg 31 = false → bit (s.dev.fn f).cq[k.val].cfg 31 = false → bit (s.dev.fn f).ev.cfg 31 = false →
       ∃ t, exec (.ringEnable f kind k cfg) s = .next t ∧ t.dev = { s.dev with host := t.dev.host } ∧
         (∀ g, g ≠ f → t.dev.fn g = s.dev.fn g) ∧
         (kind = .sq → fld cfg 19 16 ≤ 10 → (t.dev.fn f).sq[k.val].st = .run ∧ (t.dev.fn f).sq[k.val].prod = 0 ∧
           (t.dev.fn f).sq[k.val].cons = 0 ∧ bit (t.dev.fn f).sq[k.val].cfg 31 = true ∧
           ringDepth (t.dev.fn f).sq[k.val].cfg = ringDepth cfg) ∧
         (kind = .sq → 10 < fld cfg 19 16 → (t.dev.fn f).sq[k.val].st = .error ∧ (t.dev.fn f).sq[k.val].cause = 3 ∧
           bit (t.dev.fn f).sq[k.val].cfg 31 = false) ∧
         (kind = .cq → fld cfg 19 16 ≤ 10 → (t.dev.fn f).cq[k.val].st = .run ∧ (t.dev.fn f).cq[k.val].prod = 0 ∧
           (t.dev.fn f).cq[k.val].cons = 0 ∧ (t.dev.fn f).cq[k.val].phase = true ∧ bit (t.dev.fn f).cq[k.val].cfg 31 = true ∧
           ringDepth (t.dev.fn f).cq[k.val].cfg = ringDepth cfg) ∧
         (kind = .cq → 10 < fld cfg 19 16 → (t.dev.fn f).cq[k.val].st = .error ∧ (t.dev.fn f).cq[k.val].cause = 3 ∧
           bit (t.dev.fn f).cq[k.val].cfg 31 = false) ∧
         (kind = .ev → fld cfg 19 16 ≤ 10 → (t.dev.fn f).ev.st = .run ∧ (t.dev.fn f).ev.prod = 0 ∧ (t.dev.fn f).ev.cons = 0 ∧
           (t.dev.fn f).ev.phase = true ∧ (t.dev.fn f).ev.lost = 0 ∧ bit (t.dev.fn f).ev.cfg 31 = true ∧
           ringDepth (t.dev.fn f).ev.cfg = ringDepth cfg) ∧
         (kind = .ev → 10 < fld cfg 19 16 → (t.dev.fn f).ev.st = .error ∧ (t.dev.fn f).ev.cause = 3 ∧
           bit (t.dev.fn f).ev.cfg 31 = false)) ∧
  (∀ (s : State) (f : Fn) (kind : RingKind) (k : Fin 16) (cfg : W32), s.safe → powered s.dev = true →
       ∃ t, exec (.ringDisable f kind k cfg) s = .next t ∧ t.dev = { s.dev with host := t.dev.host } ∧
         (∀ g, g ≠ f → t.dev.fn g = s.dev.fn g) ∧
         (kind = .sq → (t.dev.fn f).sq[k.val].st = .off ∧ bit (t.dev.fn f).sq[k.val].cfg 31 = false ∧
           t.dev.host.ops = s.dev.host.ops) ∧
         (kind = .cq → (t.dev.fn f).cq[k.val].st = .off ∧ bit (t.dev.fn f).cq[k.val].cfg 31 = false ∧
           t.dev.host.ops =
             s.dev.host.ops.filter fun o => !(o.fn == f && o.final.isSome && o.cq == k)) ∧
         (kind = .ev → (t.dev.fn f).ev.st = .off ∧ bit (t.dev.fn f).ev.cfg 31 = false ∧ t.dev.host.ops = s.dev.host.ops)) ∧
  (∀ (s : State) (f : Fn) (k : Fin 16) (v : Fin 64), s.safe → powered s.dev = true →
       ((s.dev.fn f).cq[k.val].sinceMsg = 0 → exec (.coalesceTimer f k) s = .next s) ∧
       ((s.dev.fn f).cq[k.val].sinceMsg ≠ 0 → fld (s.dev.fn f).cq[k.val].cfg 29 24 = v.val →
         ∃ t, exec (.coalesceTimer f k) s = .next t ∧ (t.dev.fn f).cq[k.val].sinceMsg = 0 ∧
           ((s.dev.fn f).msix[v.val].masked = false → t.dev.out = .msix f v.val :: s.dev.out) ∧
           ((s.dev.fn f).msix[v.val].masked = true → t.dev.out = s.dev.out ∧ (t.dev.fn f).msix[v.val].pending = true)) ∧
       (∃ t, exec (.msixUnmask f v) s = .next t ∧ (t.dev.fn f).msix[v.val].masked = false ∧
         (t.dev.fn f).msix[v.val].pending = false ∧
         t.dev.out = (if (s.dev.fn f).msix[v.val].pending then .msix f v.val :: s.dev.out else s.dev.out) ∧
         t.dev = { s.dev with host := t.dev.host, out := t.dev.out }))

/-- R357: An event that finds the event ring full, or not running, is lost: it is counted, it takes its SEQ, and nothing is written.
Every other event is written with the ring's next SEQ at bytes 4 to 7 of the record. -/
def Obligations.eventLoss : Prop :=
  ∀ (d : Dev) (f : Fn) (s : Stamp) (p : RPos) (type scope : Nat) (payload : List W8) (h : W16) (late cont : Bool),
    (((d.fn f).ev.st ≠ .run ∨ ringFull (d.fn f).ev.cfg (d.fn f).ev.prod (d.fn f).ev.cons = true) →
      eventTo d f s p type scope payload h late cont =
        modEv d f fun e => { e with lost := satInc e.lost, seq := e.seq + 1 }) ∧
    ((d.fn f).ev.st = .run → ringFull (d.fn f).ev.cfg (d.fn f).ev.prod (d.fn f).ev.cons = false →
      ∃ bytes : List W8,
        Output.memWrite f ((d.fn f).ev.base + BitVec.ofNat 64 ((d.fn f).ev.prod.toNat * 64)) bytes ∈
          (eventTo d f s p type scope payload h late cont).out ∧
        bytes.length = 64 ∧ (bytes.drop 4).take 4 = leBytes 4 (d.fn f).ev.seq.toNat ∧
        ((eventTo d f s p type scope payload h late cont).fn f).ev.seq = (d.fn f).ev.seq + 1 ∧
        ((eventTo d f s p type scope payload h late cont).fn f).ev.lost = (d.fn f).ev.lost)

/-! ### Commands of the rings -/

/-- R332, R337, R345, R346, R363: No entry is taken from a submission ring that does not run, is empty, or whose completion ring has
no room; whatever the command, nothing changes. The fetch of an entry. A failed read stops the ring with CAUSE 2; a reserved
opcode completes with BAD_OPCODE; an entry with no reserved byte set does what the row of its opcode does, with the tag, the
FENCE flag and the deadline that it carries. Readings that are the choice of the model: assumptions 37, 38, 39. -/
def Obligations.submissionEntries : Prop :=
  (∀ (s : State) (x : CmdHdr) (c : Cmd) (e : DmaRead (BitVec 512)), s.safe → canFetch s.dev x.fn x.ring = false →
       exec (rowOf x c) s = .next s ∧ exec (.submissionEntryFetch x.fn x.ring e) s = .next s) ∧
  (∀ (s : State) (f : Fn) (k : Fin 16) (e : BitVec 512) (c : Cmd) (err : DmaError), s.safe → powered s.dev = true → canFetch s.dev f k = true →
       (∃ t, exec (.submissionEntryFetch f k (.failed err)) s = .next t ∧ (t.dev.fn f).sq[k.val].st = .error ∧
         (t.dev.fn f).sq[k.val].cause = 2 ∧ (t.dev.fn f).sq[k.val].cons = (s.dev.fn f).sq[k.val].cons ∧
         t.dev = { s.dev with host := t.dev.host, out := t.dev.out }) ∧
       (entryCmd e = none →
         ∃ t, exec (.submissionEntryFetch f k (.data e)) s = .next t ∧
           (sent s t).any (isCompletion f (b16 e 2) 0xFFFF 0x0011 0 0 0) = true ∧
           (t.dev.fn f).sq[k.val].cons = ringNext (s.dev.fn f).sq[k.val].cfg (s.dev.fn f).sq[k.val].cons ∧
           t.dev = { s.dev with host := t.dev.host, out := t.dev.out }) ∧
       (entryCmd e = some c → reservedBad e c = [] →
         exec (.submissionEntryFetch f k (.data e)) s = exec (rowOf ⟨f, k, b16 e 2, bit (b8 e 1) 0, b64 e 8⟩ c) s))

/-- R137, R339, R345, R346, R445: A command that is refused gets one completion, with no handle and the STATUS of the refusal, and
has no other effect: no operation comes or goes and no register outside the rings changes. When commands are refused. PF1 is
refused what it may not use; a port outside 0 to 15 is a bad parameter at byte 16; in HOLD the commands that its list does not
name find the device in mode 2; a link attempt or an isolation is refused outside RUN and REEF; a second privileged test is
BUSY. Readings that are the choice of the model: assumptions 38, 39, 40, 46. -/
def Obligations.commandRefusals : Prop :=
  (∀ (s : State) (x : CmdHdr) (c : Cmd) (status detail : W16), s.safe → powered s.dev = true →
       canFetch s.dev x.fn x.ring = true → refusal s.dev x.fn [] c = some (status, detail) →
       ∃ t, exec (rowOf x c) s = .next t ∧ (sent s t).any (isCompletion x.fn x.tag 0xFFFF status 0 0 0) = true ∧
         t.dev.host.ops = s.dev.host.ops ∧ t.dev.host.lastHandle = s.dev.host.lastHandle ∧
         t.dev = { s.dev with host := t.dev.host, out := t.dev.out }) ∧
  (∀ (d : Dev) (p : W8) (v : W16) (w : Vector W32 8) (ports rep : W16) (time : W64) (arg : W32) (trig : W8),
       refusal d .pf1 [] (.portConfig p v w) = some (0x0013, 0) ∧ refusal d .pf1 [] (.portUp p) = some (0x0013, 0) ∧
       refusal d .pf1 [] (.sleep 0) = some (0x0013, 0) ∧ refusal d .pf1 [] .configCommit = some (0x0013, 0) ∧
       refusal d .pf1 [] (.schedule trig 1 ports rep time arg) = some (0x0013, 0) ∧
       (16 ≤ p.toNat → refusal d .pf0 [] (.portUp p) = some (0x0012, 16) ∧ refusal d .pf0 [] (.portStatus p) = some (0x0012, 16)) ∧
       (d.sys.mode = .hold → refusal d .pf0 [] (.sleep 0) = some (0x0014, 2) ∧ refusal d .pf0 [] (.fwActivate 0) = some (0x0014, 2)) ∧
       (d.sys.mode = .safe → ∀ n : Fin 16, (d.port n).link.st = .down → linkOk (d.port n).cfg = true →
         refusal d .pf0 [] (.portUp (BitVec.ofNat 8 n.val)) = some (0x0014, 4) ∧
         refusal d .pf0 [] (.portIsolate (BitVec.ofNat 8 n.val)) = some (0x0014, 4)) ∧
       (d.sys.mode = .maintain → d.bist.privOp.isSome = true → refusal d .pf0 [] (.bistRun 2 0 1) = some (0x0019, 0)))

/-- R338, R339, R340, R341: A long command that is taken gets a handle that no operation held, an ACCEPTED completion that names it,
and its ring's consumer index moves on; every operation that was live is still known. Readings that are the choice of the model:
assumptions 38, 47. -/
def Obligations.longAccepted : Prop :=
  ∀ (s : State) (x : CmdHdr) (c : Cmd), takes s x c = true → isShort c = false → s.dev.host.ops.length < 65535 →
    s.dev.host.lastHandle ≠ 0xFFFF →
    ∃ t, exec (rowOf x c) s = .next t ∧ (s.dev.host.ops.any fun o => o.handle == allocHandle s.dev) = false ∧
      allocHandle s.dev ≠ 0xFFFF ∧
      (sent s t).any (isCompletion x.fn x.tag (allocHandle s.dev) 0x0001 0 0 0) = true ∧
      t.dev.host.ops.map (·.handle) = s.dev.host.ops.map (·.handle) ++ [allocHandle s.dev] ∧
      (t.dev.fn x.fn).sq[x.ring.val].cons = ringNext (s.dev.fn x.fn).sq[x.ring.val].cfg (s.dev.fn x.fn).sq[x.ring.val].cons

/-- R346: The short commands. NOP returns ECHO in RESULT0; PORT_STATUS returns PT_LINK_STAT and PT_MARGIN; CANCEL of a handle that
is not live completes with NO_HANDLE, and of the function's own SCHEDULE ends it with CANCELLED and removes its entries, where
none of them is due in this tick. Readings that are the choice of the model: assumption 45. -/
def Obligations.shortCommands : Prop :=
  ∀ (s : State) (x : CmdHdr) (echo : W32) (n : Fin 16) (h : W16),
    (takes s x (.nop echo) = true →
      ∃ t, exec (.nop x echo) s = .next t ∧ (sent s t).any (isCompletion x.fn x.tag 0xFFFF 0 0 echo 0) = true ∧
        t.dev = { s.dev with host := t.dev.host, out := t.dev.out }) ∧
    (takes s x (.portStatus (BitVec.ofNat 8 n.val)) = true →
      ∃ t, exec (.portStatus x (BitVec.ofNat 8 n.val)) s = .next t ∧
        (sent s t).any (isCompletion x.fn x.tag 0xFFFF 0 0 (ptLinkStat (s.dev.port n)) (ptMargin (s.dev.port n))) = true ∧
        (t.dev.port n).link = (s.dev.port n).link ∧ t.dev.host.ops = s.dev.host.ops) ∧
    (takes s x (.cancel h) = true → findOp s.dev h = none →
      ∃ t, exec (.cancel x h) s = .next t ∧ (sent s t).any (isCompletion x.fn x.tag 0xFFFF 0x0017 0 0 0) = true ∧
        t.dev = { s.dev with host := t.dev.host, out := t.dev.out }) ∧
    (takes s x (.cancel h) = true → h ≠ 0xFFFF → (∀ e ∈ s.dev.hal.cal, e.handle = h → entryTick s.dev e ≠ some s.dev.dt.dt) →
      (∃ o ∈ s.dev.host.ops, findOp s.dev h = some o ∧ o.fn = x.fn ∧
        o.final = none ∧ (match o.cmd with | .schedule .. => true | _ => false) = true) →
      ∃ t, exec (.cancel x h) s = .next t ∧ (sent s t).any (isCompletion x.fn x.tag 0xFFFF 0 0 0 0) = true ∧
        endedWith t h = some 0x0002 ∧ ∀ e ∈ t.dev.hal.cal, e.handle ≠ h)

/-- R330, R520, R522, R525, R530: FAULT_ACK of a source that is raised and not live clears it and returns 1, and 0 of any other,
which it leaves; FAULT_FORCE is an occurrence with FORCED set, or one with the hardware occurrence of its source in the same
tick, and of a source that leads to sparing not the only one; ATTIC_SETUP starts a port's ring at index 0 with the phase bit 1,
or stops it; DUMP_SETUP registers the dump region, or drops it. Readings that are the choice of the model: assumptions 19, 20,
51. -/
def Obligations.hostServices : Prop :=
  ∀ (s : State) (x : CmdHdr) (src : W16) (lvl : W8) (n : Fin 16) (j : W8) (period : W16) (addr : W64) (size : W32),
    (takes s x (.faultAck src) = true → src ≠ 0xFFFF →
      ∃ t, exec (.faultAck x src) s = .next t ∧
        (ackable s.dev (src.setWidth 10) = true →
          isRaised t.dev (src.setWidth 10) = false ∧ (sent s t).any (isCompletion x.fn x.tag 0xFFFF 0 0 1 0) = true) ∧
        (ackable s.dev (src.setWidth 10) = false →
          t.dev.flt = s.dev.flt ∧ (sent s t).any (isCompletion x.fn x.tag 0xFFFF 0 0 0 0) = true)) ∧
    (takes s x (.faultForce src lvl) = true →
      ∃ t, exec (.faultForce x src lvl) s = .next t ∧ isRaised t.dev (src.setWidth 10) = true ∧
        (sparesLane (src.setWidth 10) = false → twinOcc s.dev (src.setWidth 10) true = none → t.dev.flt.total = satInc s.dev.flt.total) ∧
        (sparesLane (src.setWidth 10) = false → (twinOcc s.dev (src.setWidth 10) true).isSome = true →
          t.dev.flt.total = s.dev.flt.total ∧ t.dev.flt.hist.length = s.dev.flt.hist.length ∧
          (t.dev.flt.hist.any fun o => o.src == src.setWidth 10 && o.forced) = true) ∧
        (sparesLane (src.setWidth 10) = false → (∀ o ∈ s.dev.flt.hist, sameTick s.dev o = false) →
          (t.dev.flt.hist.head?.map fun o => (o.src, o.forced)) = some (src.setWidth 10, true))) ∧
    (takes s x (.atticSetup (BitVec.ofNat 8 n.val) j period addr) = true → (s.dev.port n).attic.skipped = 0 →
      ∃ t, exec (.atticSetup x (BitVec.ofNat 8 n.val) j period addr) s = .next t ∧
        (j = 0 → (t.dev.port n).attic.on = false) ∧
        (j ≠ 0 → (t.dev.port n).attic.on = true ∧ (t.dev.port n).attic.depth = j.toNat ∧ (t.dev.port n).attic.addr = addr ∧
          (t.dev.port n).attic.idx = 0 ∧ (t.dev.port n).attic.phase = true) ∧
        t.dev.flt = s.dev.flt) ∧
    (takes s x (.dumpSetup size addr) = true →
      ∃ t, exec (.dumpSetup x size addr) s = .next t ∧
        t.dev.flt.halt.region = (if size = 0 then none else some (addr, size)) ∧ t.dev.ports = s.dev.ports)

/-- R34, R36, R37, R90, R166, R348: The port commands. PORT_UP takes a port in DOWN to TRAINING, preparation first, and marks it
wanted. PORT_DOWN and PORT_ISOLATE take a port whose neighbours need no warning to DOWN and ISOLATED, and otherwise begin its
leave, of T_LEAVE; a fence of the same tick goes before an isolation. Of the other ports only leaves that run may grow longer
with a new mode. A PORT_DOWN or PORT_ISOLATE accepted while a PORT_UP of the same port is live ends it with CANCELLED, and
LAST_FAIL is 12. Readings that are the choice of the model: assumptions 46, 142. -/
def Obligations.portCommands : Prop :=
  (∀ (s : State) (x : CmdHdr) (n : Fin 16),
       (takes s x (.portUp (BitVec.ofNat 8 n.val)) = true → (s.dev.port n).link.st = .down → s.dev.pwr.padPort = 0 →
         s.dev.pair.st ≠ .join →
         ∃ t, exec (.portUp x (BitVec.ofNat 8 n.val)) s = .next t ∧ (t.dev.port n).link.st = .training ∧
           (t.dev.port n).link.phase = 0 ∧ (t.dev.port n).link.wanted = true ∧ (t.dev.port n).link.f = 0 ∧
           ∀ k, k ≠ n → t.dev.port k = { s.dev.port k with
             shr := { (s.dev.port k).shr with leaves := (t.dev.port k).shr.leaves } }) ∧
       (takes s x (.portDown (BitVec.ofNat 8 n.val)) = true →
         ∃ t, exec (.portDown x (BitVec.ofNat 8 n.val)) s = .next t ∧ (t.dev.port n).link.wanted = false ∧
           (announces s.dev n = false → (t.dev.port n).link.st = .down ∧ endedWith t (allocHandle s.dev) = some 0) ∧
           (announces s.dev n = true →
             (t.dev.port n).shr.leaves = (s.dev.port n).shr.leaves ++ [⟨.portDown, none, s.dev.dt.dt, tLeave s.dev n⟩] ∧
             (t.dev.port n).link.st = (s.dev.port n).link.st ∧
             openWith t (allocHandle s.dev) (.portDown (BitVec.ofNat 8 n.val)) = true) ∧
           ∀ k, k ≠ n → t.dev.port k = s.dev.port k) ∧
       (takes s x (.portIsolate (BitVec.ofNat 8 n.val)) = true →
         ∃ t, exec (.portIsolate x (BitVec.ofNat 8 n.val)) s = .next t ∧
           (announces s.dev n = false → ((s.dev.port n).link.st = .fenced → (s.dev.port n).link.fenceTick ≠ some s.dev.dt.dt) →
             (t.dev.port n).link.st = .isolated ∧ endedWith t (allocHandle s.dev) = some 0) ∧
           (announces s.dev n = false → (s.dev.port n).link.st = .fenced → s.dev.dt.running = true →
             (s.dev.port n).link.fenceTick = some s.dev.dt.dt →
             (t.dev.port n).link.st = .fenced ∧ endedWith t (allocHandle s.dev) = some 0x0014) ∧
           (announces s.dev n = true →
             (t.dev.port n).shr.leaves = (s.dev.port n).shr.leaves ++ [⟨.portIsolate, none, s.dev.dt.dt, tLeave s.dev n⟩] ∧
             (t.dev.port n).link.st = (s.dev.port n).link.st ∧
             openWith t (allocHandle s.dev) (.portIsolate (BitVec.ofNat 8 n.val)) = true) ∧
           ∀ k, k ≠ n → t.dev.port k = s.dev.port k)) ∧
  (∀ (s : State) (x : CmdHdr) (n : Fin 16) (h : W16) (o : Op) (c : Cmd),
       c = .portDown (BitVec.ofNat 8 n.val) ∨ c = .portIsolate (BitVec.ofNat 8 n.val) → takes s x c = true →
       findOp s.dev h = some o → o ∈ s.dev.host.ops → o.cmd = .portUp (BitVec.ofNat 8 n.val) → o.final = none →
       ∃ t, exec (rowOf x c) s = .next t ∧ endedWith t h = some 0x0002 ∧ (t.dev.port n).link.lastFail = 12)

/-- R346, R351, R572: PORT_CONFIG writes the set-up register that VALID names, and completes; OAM_SEND opens an exchange; DIAG_TDR
leaves an operation that waits for its sweep; DIAG_SIGNATURE with OP 0 writes 4,096 B, and with OP 1 reads as many;
COUNTERS_READ writes the 128 B of counters. Readings that are the choice of the model: assumptions 33, 91. -/
def Obligations.portServices : Prop :=
  ∀ (s : State) (x : CmdHdr) (n : Fin 16) (w : Vector W32 8) (type len : W8) (payload : BitVec 352) (addr : W64),
    (takes s x (.portConfig (BitVec.ofNat 8 n.val) 8 w) = true → (s.dev.port n).attic.dmaHalt = false →
      ∃ t, exec (.portConfig x (BitVec.ofNat 8 n.val) 8 w) s = .next t ∧
        (t.dev.port n).cfg.rtxCfg = stored (.pt n 0x200) w[3] ∧ endedWith t (allocHandle s.dev) = some 0 ∧
        ∀ k, k ≠ n → t.dev.port k = s.dev.port k) ∧
    (takes s x (.oamSend (BitVec.ofNat 8 n.val) type len payload) = true →
      ∃ t, exec (.oamSend x (BitVec.ofNat 8 n.val) type len payload) s = .next t ∧
        (t.dev.port n).oam.live.length = (s.dev.port n).oam.live.length + 1 ∧
        ((t.dev.port n).oam.live.getLast?.map fun y => (y.type, y.len, y.payload, y.op)) =
          some (type, len, cutPayload len payload, some (allocHandle s.dev)) ∧ (t.dev.port n).link = { (s.dev.port n).link with f := (t.dev.port n).link.f }) ∧
    (takes s x (.diagTdr (BitVec.ofNat 8 n.val)) = true →
      ∃ t, exec (.diagTdr x (BitVec.ofNat 8 n.val)) s = .next t ∧
        openWith t (allocHandle s.dev) (.diagTdr (BitVec.ofNat 8 n.val)) = true ∧ (t.dev.port n).link = (s.dev.port n).link) ∧
    (takes s x (.diagSignature (BitVec.ofNat 8 n.val) 0 addr) = true → (s.dev.port n).pc.up = true →
      ∃ t, exec (.diagSignature x (BitVec.ofNat 8 n.val) 0 addr) s = .next t ∧
        (sent s t).any (isWrite x.fn addr 4096) = true ∧ endedWith t (allocHandle s.dev) = some 0) ∧
    (takes s x (.diagSignature (BitVec.ofNat 8 n.val) 1 addr) = true →
      ∃ t, exec (.diagSignature x (BitVec.ofNat 8 n.val) 1 addr) s = .next t ∧
        .dmaRead (allocHandle s.dev) addr 4096 ∈ sent s t ∧
        openWith t (allocHandle s.dev) (.diagSignature (BitVec.ofNat 8 n.val) 1 addr) = true) ∧
    (takes s x (.countersRead (BitVec.ofNat 8 n.val) 0 addr) = true → (s.dev.port n).pc.up = true →
      ∃ t, exec (.countersRead x (BitVec.ofNat 8 n.val) 0 addr) s = .next t ∧
        (sent s t).any (isWrite x.fn addr 128) = true ∧ endedWith t (allocHandle s.dev) = some 0 ∧
        (t.dev.port n).rtx = (s.dev.port n).rtx)

/-- R268, R300, R303, R559, R561, R580, R582: CAPTURE with START 1 waits for the calendar; CAL_RUN starts a run of every port named;
BIST_RUN of target 2 waits for its tests; SCHEDULE places an entry of its own handle; LANE_SPARE to the port's own lane
completes, and to another one brings that lane up first. Readings that are the choice of the model: assumptions 47, 48, 88, 101. -/
def Obligations.actionCommands : Prop :=
  ∀ (s : State) (x : CmdHdr) (n : Fin 16) (src : W8) (len : W32) (addr : W64) (ports rep : W16) (tests : W32) (trig a : W8)
    (time : W64) (arg : W32) (m : Fin 20),
    (takes s x (.capture (BitVec.ofNat 8 n.val) src 1 len addr) = true → len ≠ 0 →
      ∃ t, exec (.capture x (BitVec.ofNat 8 n.val) src 1 len addr) s = .next t ∧
        openWith t (allocHandle s.dev) (.capture (BitVec.ofNat 8 n.val) src 1 len addr) = true ∧
        t.dev.hal = s.dev.hal) ∧
    (takes s x (.calRun ports) = true →
      ∃ t, exec (.calRun x ports) s = .next t ∧
        (∀ k : Fin 16, bit ports k.val = true → (t.dev.port k).diag.calRunning = true) ∧
        (∀ k : Fin 16, bit ports k.val = false → t.dev.port k = s.dev.port k)) ∧
    (takes s x (.bistRun 2 ports tests) = true → tests ≠ 0 →
      ∃ t, exec (.bistRun x 2 ports tests) s = .next t ∧ t.dev.bist.privOp = some (allocHandle s.dev) ∧
        t.dev.bist.privLeft = tests.setWidth 4 ∧ t.dev.sys.mode = .maintain) ∧
    (takes s x (.schedule trig a ports rep time arg) = true →
      ∃ t, exec (.schedule x trig a ports rep time arg) s = .next t ∧
        t.dev.hal.cal.length = s.dev.hal.cal.length + 1 ∧
        (t.dev.hal.cal.any fun e => e.handle == allocHandle s.dev && e.action == a && e.ports == ports && e.rep == rep &&
          e.time == time && e.arg == arg) = true ∧ t.dev.ports = s.dev.ports) ∧
    (takes s x (.laneSpare (BitVec.ofNat 8 n.val) (BitVec.ofNat 8 m.val)) = true → (s.dev.port n).lane = m →
      (s.dev.port n).attic.dmaHalt = false →
      ∃ t, exec (.laneSpare x (BitVec.ofNat 8 n.val) (BitVec.ofNat 8 m.val)) s = .next t ∧
        endedWith t (allocHandle s.dev) = some 0 ∧ t.dev.lanes = s.dev.lanes) ∧
    (takes s x (.laneSpare (BitVec.ofNat 8 n.val) (BitVec.ofNat 8 m.val)) = true → (s.dev.port n).lane ≠ m →
      (s.dev.lane m).rx ≠ .locked →
      ∃ t, exec (.laneSpare x (BitVec.ofNat 8 n.val) (BitVec.ofNat 8 m.val)) s = .next t ∧
        (t.dev.lane m).target = some (allocHandle s.dev) ∧ (t.dev.port n).lane = (s.dev.port n).lane ∧
        openWith t (allocHandle s.dev) (.laneSpare (BitVec.ofNat 8 n.val) (BitVec.ofNat 8 m.val)) = true)

/-- R33, R281, R284, R286, R292, R349, R354, R443, R446, R450, R491: CONFIG_LOAD and FW_STAGE read their chunk; CONFIG_COMMIT of an
image that passes every check applies it, takes a device in HOLD to RUN, and ends, or writes the image to flash first where it
asks for that; of an empty buffer it ends with VERIFY and code 0x01; FW_ACTIVATE of the manager's staged image makes that slot
active, on trial, and restarts the manager. TIME_SET with mode 0 steps DT by V − C and counts the step in EPOCH, and with mode 3
clears COARSE alone; RASTER_SET waits for its frame start; SLEEP begins the entry to DEEP and records the state of every port,
unless a wake of the same tick aborts it. Readings that are the choice of the model: assumptions 27, 28, 30, 31, 127. -/
def Obligations.imageAndTimeCommands : Prop :=
  (∀ (s : State) (x : CmdHdr) (offset len : W32) (addr : W64) (i last : W8) (l : List Section),
       (takes s x (.configLoad offset len addr) = true →
         ∃ t, exec (.configLoad x offset len addr) s = .next t ∧ .dmaRead (allocHandle s.dev) addr len.toNat ∈ sent s t ∧
           openWith t (allocHandle s.dev) (.configLoad offset len addr) = true ∧ t.dev.cfg = s.dev.cfg) ∧
       (takes s x (.fwStage i last offset len addr) = true →
         ∃ t, exec (.fwStage x i last offset len addr) s = .next t ∧ .dmaRead (allocHandle s.dev) addr len.toNat ∈ sent s t ∧
           openWith t (allocHandle s.dev) (.fwStage i last offset len addr) = true ∧ t.dev.boot = s.dev.boot) ∧
       (takes s x .configCommit = true → validate s.dev (heldFrom 0 s.dev.cfg.image) = .ok l →
         ∃ t, exec (.configCommit x) s = .next t ∧ t.dev.cfg.err = 0 ∧ t.dev.cfg.section_ = 0xFF ∧ t.dev.cfg.src = 2 ∧
           t.dev.cfg.image = [] ∧
           t.dev.cfg.imageVer = BitVec.ofNat 32
             (fieldAt (heldFrom 0 s.dev.cfg.image) (imageLength (heldFrom 0 s.dev.cfg.image) - 4) 4) ∧
           (persists (heldFrom 0 s.dev.cfg.image) = false → endedWith t (allocHandle s.dev) = some 0) ∧
           (persists (heldFrom 0 s.dev.cfg.image) = true →
             openWith t (allocHandle s.dev) .configCommit = true ∧ t.dev.cfg.persistOp = some (allocHandle s.dev)) ∧
           (s.dev.sys.mode = .hold → (∀ y ∈ l, y.type ≠ 1) → t.dev.sys.mode = .run)) ∧
       (takes s x .configCommit = true → s.dev.cfg.image = [] →
         ∃ t, exec (.configCommit x) s = .next t ∧ endedWith t (allocHandle s.dev) = some 0x001D ∧ t.dev.cfg.err = 0x01 ∧
           t.dev.cfg.section_ = 0xFF ∧ t.dev.sys.mode = s.dev.sys.mode ∧ t.dev.ports = s.dev.ports) ∧
       (takes s x (.fwActivate 1) = true → accepted s.dev (fwImage s.dev.boot.flash .mgr (inactiveSlot s.dev .mgr)) = true →
         (bootRecord s.dev.boot.flash).count ≠ 0xFFFFFFFF →
         ∃ t, exec (.fwActivate x 1) s = .next t ∧ t.dev.sys.mgrUp = false ∧ t.dev.sys.mode = .maintain ∧
           (bootRecord t.dev.boot.flash).mgrSlot = !(bootRecord s.dev.boot.flash).mgrSlot ∧
           (bootRecord t.dev.boot.flash).mgrPrev = (bootRecord s.dev.boot.flash).mgrSlot ∧
           (bootRecord t.dev.boot.flash).mgrTrial = true ∧ t.dev.sys.restarts = satInc s.dev.sys.restarts)) ∧
  (∀ (s : State) (x : CmdHdr) (c v : W64) (r : RasterParams),
       (takes s x (.timeSet 0 c v) = true →
         ∃ t, exec (.timeSet x 0 c v) s = .next t ∧ t.dev.dt.dt = s.dev.dt.dt + (v - c) ∧
           t.dev.dt.epoch = s.dev.dt.epoch + 1 ∧ t.dev.dt.coarse = false ∧ endedWith t (allocHandle s.dev) = some 0) ∧
       (takes s x (.timeSet 3 c v) = true →
         ∃ t, exec (.timeSet x 3 c v) s = .next t ∧ t.dev.dt.dt = s.dev.dt.dt ∧ t.dev.dt.epoch = s.dev.dt.epoch ∧
           t.dev.dt.coarse = false ∧ endedWith t (allocHandle s.dev) = some 0) ∧
       (takes s x (.rasterSet r) = true →
         ∃ t, exec (.rasterSet x r) s = .next t ∧ t.dev.raster = { s.dev.raster with next := some (r, some (allocHandle s.dev)) } ∧
           t.dev.dt.dt = s.dev.dt.dt ∧ t.dev.dt.epoch = s.dev.dt.epoch ∧ ∀ k, (t.dev.port k).link = (s.dev.port k).link) ∧
       (takes s x (.sleep 0) = true → (wakeNow s.dev).isSome = true →
         ∃ t, exec (.sleep x 0) s = .next t ∧ t.dev.avs.deepStep = 0 ∧ t.dev.pwr.aborted = true ∧
           endedWith t (allocHandle s.dev) = some 0x0003) ∧
       (takes s x (.sleep 0) = true → wakeNow s.dev = none →
         ∃ t, exec (.sleep x 0) s = .next t ∧ t.dev.avs.deepStep = 1 ∧ t.dev.avs.deepOp = some (allocHandle s.dev) ∧
           (∀ n : Fin 16, t.dev.sys.portsAt[n.val] = (s.dev.port n).link.st) ∧ t.dev.sys.mode = s.dev.sys.mode))

/-- R28, R336, R337, R340, R343, R344: The start of a fenced operation and its FINAL completion. It starts when every earlier
operation of its ring has ended, and does what its opcode does: a PORT_UP takes its port to TRAINING, an OAM_SEND opens an
exchange, a DIAG_TDR waits for its sweep, its word in the queue of a controller that is down (R405); a start that finds its
state gone ends with STATE. One that has ended gives its FINAL completion where its ring has room, and its handle is free;
without room it waits, and a ring that software has disabled discards it. A deadline passes at its DT. An open operation,
whatever its opcode, ends with TIMEOUT and stays known until its FINAL completion is written. Unless it is a LANE_SPARE, whose
lane may need the other spare, no other operation ends and no port leaves its state. What a PORT_UP, a CONFIG_COMMIT, an
FW_ACTIVATE or a TIME_SET has begun goes on; a SCHEDULE loses its entries. An operation that has ended keeps its result, and
while the manager restarts nothing happens. Readings that are the choice of the model: assumptions 41, 44, 49. -/
def Obligations.operationLife : Prop :=
  (∀ (s : State) (o : Op) (r : OpResult) (n : Fin 16) (type len : W8) (payload : BitVec 352) (detail : W16), s.safe →
       powered s.dev = true → s.dev.sys.mgrUp = true → findOp s.dev o.handle = some o →
       (o.started = false → o.final = none → fencedBy s.dev o.fn o.ring o.order = false →
         (o.cmd = .diagTdr (BitVec.ofNat 8 n.val) → s.dev.sys.mode ≠ .hold → (s.dev.port n).link.st = .isolated →
           ∃ t, exec (.fencedCommandStart o.handle) s = .next t ∧
             findOp t.dev o.handle = some { o with started := true } ∧
             t.dev = { s.dev.modPort n fun p => { p with pc := { p.pc with
               toPc := if p.pc.up then p.pc.toPc else min 8 (p.pc.toPc + 1) } } with host := t.dev.host }) ∧
         (o.cmd = .portUp (BitVec.ofNat 8 n.val) → trainMode s.dev = true → linkOk (s.dev.port n).cfg = true →
           (s.dev.port n).link.st = .down → s.dev.pwr.padPort = 0 → s.dev.pair.st ≠ .join →
           ∃ t, exec (.fencedCommandStart o.handle) s = .next t ∧
             findOp t.dev o.handle = some { o with started := true } ∧ (t.dev.port n).link.st = .training ∧
             (t.dev.port n).link.phase = 0 ∧ ∀ k, k ≠ n → t.dev.port k = { s.dev.port k with
               shr := { (s.dev.port k).shr with leaves := (t.dev.port k).shr.leaves } }) ∧
         (o.cmd = .oamSend (BitVec.ofNat 8 n.val) type len payload →
           s.dev.sys.mode ≠ .hold → (s.dev.port n).link.st = .up → (s.dev.port n).link.mode.gletik = true →
           ∃ t, exec (.fencedCommandStart o.handle) s = .next t ∧
             findOp t.dev o.handle = some { o with started := true } ∧
             ((t.dev.port n).oam.live.getLast?.map fun y => (y.type, y.len, y.payload, y.op)) =
               some (type, len, cutPayload len payload, some o.handle)) ∧
         (stateBad s.dev o.cmd = some detail →
           ∃ t, exec (.fencedCommandStart o.handle) s = .next t ∧ endedWith t o.handle = some 0x0014 ∧
             t.dev = { s.dev with host := t.dev.host })) ∧
       (o.started = false → fencedBy s.dev o.fn o.ring o.order = true → exec (.fencedCommandStart o.handle) s = .next s) ∧
       (o.final = some r → bit (s.dev.fn o.fn).cq[o.cq.val].cfg 31 = true →
         cqRoom (s.dev.fn o.fn).cq[o.cq.val] = true →
         ∃ t, exec (.finalCompletion o.handle) s = .next t ∧ findOp t.dev o.handle = none ∧
           (sent s t).any (isCompletion o.fn o.tag o.handle r.status 1 r.r0 r.r1) = true ∧
           (∀ h, h ≠ o.handle → findOp t.dev h = findOp s.dev h) ∧
           t.dev = { s.dev with host := t.dev.host, out := t.dev.out }) ∧
       (o.final = some r → bit (s.dev.fn o.fn).cq[o.cq.val].cfg 31 = true →
         cqRoom (s.dev.fn o.fn).cq[o.cq.val] = false →
         ∃ t, exec (.finalCompletion o.handle) s = .next t ∧ findOp t.dev o.handle = some { o with heldBack := true } ∧
           t.dev = { s.dev with host := t.dev.host } ∧ ∀ h, h ≠ o.handle → findOp t.dev h = findOp s.dev h) ∧
       (o.final = some r → bit (s.dev.fn o.fn).cq[o.cq.val].cfg 31 = false →
         exec (.finalCompletion o.handle) s = .next { s with dev := dropOp s.dev o.handle })) ∧
  (∀ (s : State) (o : Op), s.safe → powered s.dev = true → findOp s.dev o.handle = some o →
       (s.dev.sys.mgrUp = true → o.final = none →
         ∃ t, exec (.commandDeadline o.handle) s = .next t ∧ endedWith t o.handle = some 0x0010 ∧
           ((match o.cmd with | .laneSpare .. => false | _ => true) = true → t.dev.sys = s.dev.sys ∧
             (∀ h, h ≠ o.handle → endedWith t h = endedWith s h) ∧ t.dev.lanes.map (·.cfg) = s.dev.lanes.map (·.cfg) ∧
             ∀ n, (t.dev.port n).link = (s.dev.port n).link) ∧
           ((match o.cmd with | .portUp _ | .configCommit | .fwActivate _ => true | _ => false) = true →
             t.dev = { s.dev with host := t.dev.host, dt := t.dev.dt }) ∧
           t.dev.dt.dt = (if s.dev.dt.running = true ∧ s.dev.dt.dt < o.deadline then o.deadline else s.dev.dt.dt) ∧
           ((match o.cmd with | .timeSet .. => true | _ => false) = true → s.dev.dt.running = false ∨ o.deadline ≤ s.dev.dt.dt →
           t.dev.dt.slew = s.dev.dt.slew) ∧
           ((match o.cmd with | .schedule .. => true | _ => false) = true → o.handle ≠ 0xFFFF → ∀ e ∈ t.dev.hal.cal, e.handle ≠ o.handle)) ∧
       (o.final.isSome = true ∨ s.dev.sys.mgrUp = false → exec (.commandDeadline o.handle) s = .next s))

/-- R364: A failed read of a command's buffer, under CONFIG_LOAD, FW_STAGE or the comparison of a DIAG_SIGNATURE, ends that command
with DMA_ERROR and the offset that failed, and discards what the chunk delivered. Nothing else stops. -/
def Obligations.failedBufferRead : Prop :=
  ∀ (s : State) (o : Op) (failOffset : W16) (err : DmaError) (image last port : W8) (offset len : W32) (addr : W64), s.safe → powered s.dev = true →
    s.dev.sys.mgrUp = true → findOp s.dev o.handle = some o → o.final = none → o.started = true → o.left = 0 →
    (o.cmd = .configLoad offset len addr ∨ o.cmd = .fwStage image last offset len addr ∨ o.cmd = .diagSignature port 1 addr) →
    ∃ t, exec (.bufferReadCompletion o.handle (.failed err) failOffset) s = .next t ∧ endedWith t o.handle = some 0x001B ∧
      (findOp t.dev o.handle).map (fun y => y.final.map (·.detail)) = some (some failOffset) ∧
      (t.dev.host.ops.filter fun y => y.handle != o.handle) = (s.dev.host.ops.filter fun y => y.handle != o.handle) ∧
      t.dev = { s.dev with host := t.dev.host, out := .aer o.fn err :: s.dev.out }

/-- R349, R361, R434, R446, R530: The data of a CONFIG_LOAD goes into the image buffer and the command ends with SUCCESS. A write to
flash ends: of an image, and it completes its CONFIG_COMMIT, with VERIFY and code 0x0F when the read-back fails; else of a chunk
of firmware that is not the last, and its FW_STAGE ends with SUCCESS or VERIFY; else of the post-mortem summary, which then
stands in flash. With none of these under way it changes nothing. Readings that are the choice of the model: assumptions 30, 54. -/
def Obligations.buffersAndFlash : Prop :=
  ∀ (s : State) (o : Op) (bytes : List W8) (failOffset : W16) (image : W8) (offset len : W32) (addr : W64) (ok : Bool), s.safe →
    powered s.dev = true →
    (s.dev.sys.mgrUp = true → findOp s.dev o.handle = some o → o.final = none → o.started = true →
      (o.cmd = .configLoad offset len addr → o.left = 0 → bytes.length = len.toNat →
        ∃ t, exec (.bufferReadCompletion o.handle (.data bytes) failOffset) s = .next t ∧ endedWith t o.handle = some 0 ∧
          t.dev.cfg.image = putChunk s.dev.cfg.image offset.toNat bytes ∧
          t.dev = { s.dev with host := t.dev.host, cfg := { s.dev.cfg with image := t.dev.cfg.image } }) ∧
      (o.cmd = .configCommit → s.dev.cfg.persistOp = some o.handle →
        ∃ t u, exec (.flashWriteDone true) s = .next t ∧ exec (.flashWriteDone false) s = .next u ∧
          endedWith t o.handle = some 0 ∧ endedWith u o.handle = some 0x001D ∧ t.dev.cfg.persistOp = none ∧
          u.dev.cfg.persistOp = none ∧ u.dev.cfg.err = 0x0F ∧ t.dev.ports = s.dev.ports ∧ u.dev.ports = s.dev.ports) ∧
      (o.cmd = .fwStage image 0 offset len addr → o.left = 1 → s.dev.cfg.persistOp = none →
        (∀ x ∈ s.dev.host.ops, x.left = 1 → x = o) →
        ∃ t u, exec (.flashWriteDone true) s = .next t ∧ exec (.flashWriteDone false) s = .next u ∧
          endedWith t o.handle = some 0 ∧ endedWith u o.handle = some 0x001D ∧ t.dev = { s.dev with host := t.dev.host } ∧
          u.dev = { s.dev with host := u.dev.host })) ∧
    (s.dev.cfg.persistOp = none → (∀ x ∈ s.dev.host.ops, x.left ≠ 1) →
      (s.dev.flt.halt.flashing.isSome = true →
        ∃ t, exec (.flashWriteDone ok) s = .next t ∧ t.dev.flt.halt.flashing = none ∧ t.dev.flt.halt.pending = false ∧
          t.dev.flt.halt.state = (if ok then 3 else s.dev.flt.halt.state) ∧
          t.dev.boot.flash.summary = (if ok then s.dev.flt.halt.flashing else s.dev.boot.flash.summary) ∧
          t.dev = { s.dev with flt := { s.dev.flt with halt := t.dev.flt.halt }, boot := t.dev.boot }) ∧
      (s.dev.flt.halt.flashing = none → exec (.flashWriteDone ok) s = .next s))

/-! ### Register access, locks and mailboxes -/

/-- R327, R383, R387, R408: A reserved offset, or a factory-only range, reads 0 for every master that reaches it and ignores a
write, with no error response, and so does every part of PF1's window beyond its two blocks. The sideband gets an error response
beyond what it reaches, the secure block included while SB_SECURE is 0. Nothing else happens. -/
def Obligations.reservedAccesses : Prop :=
  ∀ (s : State) (m : Master) (o r : Nat) (v : W64), s.safe → powered s.dev = true → o % 4 = 0 →
    (target s.dev m false o = .reg r → regValue s.dev m (place r) = none →
      exec (.registerWrite ⟨m, false, o⟩ 4 v) s = .next s ∧
      exec (.rcRead ⟨m, false, o⟩ 4) s = .next { s with dev := { s.dev with out := .readData m 0 :: s.dev.out } }) ∧
    ((0x1000 ≤ o ∧ o < 0x4000) ∨ 0x6000 ≤ o →
      exec (.registerWrite ⟨.pf1, false, o⟩ 4 v) s = .next s ∧
      exec (.rcRead ⟨.pf1, false, o⟩ 4) s = .next { s with dev := { s.dev with out := .readData .pf1 0 :: s.dev.out } }) ∧
    (0x2000 ≤ o ∨ (0x1000 ≤ o ∧ s.dev.boot.strap.sbSecure = false) →
      exec (.registerWrite ⟨.sb, false, o⟩ 4 v) s = .next { s with dev := { s.dev with out := .errorResponse .sb :: s.dev.out } } ∧
      exec (.rcRead ⟨.sb, false, o⟩ 4) s = .next { s with dev := { s.dev with out := .errorResponse .sb :: s.dev.out } })

/-- R382, R387, R388, R389, R414, R415, R416: A write of fewer than 4 bytes to a register is ignored, sets PARTIAL and, as the first
error since GCTL_ERR was read, records its offset and master; a later error records nothing. The read of GCTL_ERR returns the
bits and clears them for every master. A write of a set-up register stores its fields, and the read gives them back. A sideband
transaction that ends within a word changes nothing (R408). A parity mismatch in a set-up register of the device counts, records
the first offset, raises CFG_PARITY and leaves every other register alone, and the reserved fields of its own; the rewrite of
the manager gives the register the value last applied, and ends the condition. An offset that is no set-up register has none.
Readings that are the choice of the model: assumptions 84, 119. -/
def Obligations.registerAccess : Prop :=
  (∀ (s : State) (m : Master) (o : Nat) (size : Nat) (v : W64) (w : Bool) (addr : W16), s.safe → powered s.dev = true →
       (m = .mgr ∨ m = .pf0 → size = 1 ∨ size = 2 → o % 4 + size ≤ 4 → (regValue s.dev m (place (o / 4 * 4))).isSome = true →
         ((s.dev.acc.rdOff || s.dev.acc.wrOff || s.dev.acc.partialWr) = false →
           exec (.registerWrite ⟨m, false, o⟩ size v) s = .next { s with dev := { s.dev with acc := { s.dev.acc with
             partialWr := true, errMaster := (if m = .mgr then 1 else 2), errAddr := BitVec.ofNat 32 (o / 4 * 4) } } }) ∧
         ((s.dev.acc.rdOff || s.dev.acc.wrOff || s.dev.acc.partialWr) = true →
           exec (.registerWrite ⟨m, false, o⟩ size v) s =
             .next { s with dev := { s.dev with acc := { s.dev.acc with partialWr := true } } })) ∧
       (m = .mgr ∨ m = .pf0 →
         exec (.rcRead ⟨m, false, 0x10⟩ 4) s = .next { s with dev := { s.dev with
           acc := { s.dev.acc with rdOff := false, wrOff := false, partialWr := false },
           out := .readData m ((gctlErr s.dev.acc).setWidth 64) :: s.dev.out } }) ∧
       (m = .mgr ∨ m = .pf0 → s.dev.clk.coreSrc ≠ 2 →
         exec (.registerWrite ⟨m, false, 0xE028⟩ 4 v) s =
           .next { s with dev := { s.dev with hal := { s.dev.hal with dom := (v &&& 0x3FF).setWidth 32 } } } ∧
         exec (.rcRead ⟨m, false, 0xE028⟩ 4) s =
           .next { s with dev := { s.dev with out := .readData m (s.dev.hal.dom.setWidth 64) :: s.dev.out } }) ∧
       exec (.sidebandAbandon w addr) s = .next s) ∧
  (∀ (s : State) (o : BitVec 22) (v : W32), s.safe → powered s.dev = true → forcesDown s.dev.sys.mode = false →
       (o = 0xC000 ∨ o = 0xE020 ∨ o = 0xE030 → bit (group s.dev (.device 0)).force 0 = false → s.dev.acc.parFrozen = false →
         s.dev.acc.parCount ≠ 255 → s.dev.acc.parWait = [] → stored (.pwr 0) s.dev.pwr.cfg = s.dev.pwr.cfg →
         stored (.hal 0x20) s.dev.hal.fsyncCfg = s.dev.hal.fsyncCfg → stored (.hal 0x30) s.dev.hal.calCfg = s.dev.hal.calCfg →
         ∃ t, exec (.parityMismatch o) s = .next t ∧ t.dev.acc.parCount = s.dev.acc.parCount + 1 ∧ t.dev.acc.parAddr = o ∧
           t.dev.acc.parFrozen = true ∧ isLive t.dev 0x000 = true ∧ t.dev.clk = s.dev.clk ∧ t.dev.dt = s.dev.dt ∧
           t.dev.pwr = { s.dev.pwr with cfg := t.dev.pwr.cfg } ∧ (o ≠ 0xC000 → t.dev.pwr = s.dev.pwr) ∧
           (o ≠ 0xE020 → t.dev.hal.fsyncCfg = s.dev.hal.fsyncCfg) ∧ (o ≠ 0xE030 → t.dev.hal.calCfg = s.dev.hal.calCfg) ∧
           stored (.pwr 0) t.dev.pwr.cfg = t.dev.pwr.cfg ∧
           (s.dev.sys.mgrUp = true →
             ∃ u, exec .parityRewrite t = .next u ∧ u.dev.acc.parWait = [] ∧ isLive u.dev 0x000 = false ∧
               u.dev.clk = s.dev.clk ∧ u.dev.pwr = s.dev.pwr ∧ u.dev.hal.fsyncCfg = s.dev.hal.fsyncCfg ∧
               u.dev.hal.calCfg = s.dev.hal.calCfg)) ∧
       ((setupFields (place o.toNat)).isSome = false → exec (.parityMismatch o) s = .next s) ∧
       (s.dev.sys.mgrUp = true → s.dev.acc.parWait = [(0xE030, v)] → bit (group s.dev (.device 0)).force 0 = false →
         ∃ t, exec .parityRewrite s = .next t ∧ t.dev.acc.parWait = [] ∧ isLive t.dev 0x000 = false ∧
           t.dev.hal.calCfg = stored (.hal 0x30) v ∧ t.dev.pwr = s.dev.pwr ∧ t.dev.clk = s.dev.clk) ∧
       (s.dev.sys.mgrUp = false ∨ s.dev.acc.parWait = [] → exec .parityRewrite s = .next s))

/-- R13, R327, R380, R392, R394: What a master that fails the P check can change. Its writes reach its own rings and doorbells,
mailbox N, the locks and its own wide-read set, and the record of its errors; every other block, PF0's included, stays. -/
def Obligations.unprivilegedWrites : Prop :=
  ∀ (s : State) (a : Access) (v : W64), s.safe → powered s.dev = true → passesP s.dev a.master = false →
    accessOk a 4 = true → a.offset % 4 = 0 →
      ∃ t, exec (.registerWrite a 4 v) s = .next t ∧ t.pending = s.pending ∧ t.dev.sys = s.dev.sys ∧ t.dev.clk = s.dev.clk ∧
        t.dev.pwr = s.dev.pwr ∧ t.dev.avs = s.dev.avs ∧ t.dev.dt = s.dev.dt ∧ t.dev.raster = s.dev.raster ∧
        t.dev.hal = s.dev.hal ∧ t.dev.cfg = s.dev.cfg ∧ t.dev.boot = s.dev.boot ∧ t.dev.age = s.dev.age ∧
        t.dev.bist = s.dev.bist ∧ t.dev.mem = s.dev.mem ∧ t.dev.pair = s.dev.pair ∧ t.dev.ports = s.dev.ports ∧
        t.dev.lanes = s.dev.lanes ∧ t.dev.mbxS = s.dev.mbxS ∧ t.dev.host.pf0.sq = s.dev.host.pf0.sq ∧
        t.dev.host.pf0.cq = s.dev.host.pf0.cq ∧ t.dev.host.pf0.ev = s.dev.host.pf0.ev ∧ t.dev.acc.widePf0 = s.dev.acc.widePf0 ∧
        t.dev.acc.wideMgr = s.dev.acc.wideMgr ∧ t.dev.flt = s.dev.flt

/-- R391, R392, R394, R425, R427: The write of WIDE_SEL takes a snapshot and sets VALID; a class of no chapter gives zeros with ERR,
and a class that the master may not select zeros with DENIED. The read of WIDE_D3 gives the last word and clears VALID. Every
other wide-read set stays. A read of a free lock gives 0 and takes it for the reader; a read of a held one gives 1, to its owner
too, and changes nothing. The owner's write of 0 frees it; any other write of it changes nothing. A write of LOCK_FREE by a
privileged master frees the locks of its bits, whoever holds them. Readings that are the choice of the model: assumptions 116,
117. -/
def Obligations.wideReadsAndLocks : Prop :=
  (∀ (s : State) (m : Master) (sel : W32), s.safe → powered s.dev = true → s.dev.clk.coreSrc ≠ 2 →
       (∃ t, exec (.wideSelWrite m sel) s = .next t ∧ (wideSet t.dev.acc m).sel = sel ∧
         (classAllowed s.dev m (fld sel 31 24) = false → wideStat (wideSet t.dev.acc m) = 0x2000_0000) ∧
         (classAllowed s.dev m (fld sel 31 24) = true → classDefined (fld sel 31 24) = false →
           wideStat (wideSet t.dev.acc m) = 0x1000_0000 ∧ (wideSet t.dev.acc m).d = Vector.replicate 4 0) ∧
         (sel = 0x0100_0000 → wideStat (wideSet t.dev.acc m) = 0x8000_0000 ∧
           (wideSet t.dev.acc m).d[0] = Config.dieId.setWidth 32 ∧ (wideSet t.dev.acc m).d[2] = Config.otpMapRev) ∧
         (∀ x : Fin 4, [Master.mgr, .pf0, .pf1, .sb][x.val] ≠ m →
           wideSet t.dev.acc [Master.mgr, .pf0, .pf1, .sb][x.val] = wideSet s.dev.acc [Master.mgr, .pf0, .pf1, .sb][x.val]) ∧
         t.dev = { s.dev with acc := t.dev.acc }) ∧
       (∃ t, exec (.wideD3Read m) s = .next t ∧ wideSet t.dev.acc m = { wideSet s.dev.acc m with valid := false } ∧
         t.dev.out = .readData m ((wideSet s.dev.acc m).d[3].setWidth 64) :: s.dev.out ∧
         t.dev = { s.dev with acc := t.dev.acc, out := t.dev.out })) ∧
  (∀ (s : State) (m : Master) (i j : Fin 32) (v : W32), s.safe → powered s.dev = true → s.dev.clk.coreSrc ≠ 2 →
       (lockOwner s.dev.acc i = 0 →
         exec (.lockRead m i) s = .next { s with dev := { s.dev with
           acc := { s.dev.acc with locks := s.dev.acc.locks.set i.val (BitVec.ofNat 4 m.code) },
           out := .readData m 0 :: s.dev.out } }) ∧
       (lockOwner s.dev.acc i ≠ 0 →
         exec (.lockRead m i) s = .next { s with dev := { s.dev with out := .readData m 1 :: s.dev.out } }) ∧
       ((lockOwner s.dev.acc i).toNat = m.code → v = 0 →
         exec (.lockRelease m i v) s =
           .next { s with dev := { s.dev with acc := { s.dev.acc with locks := s.dev.acc.locks.set i.val 0 } } }) ∧
       ((lockOwner s.dev.acc i).toNat ≠ m.code ∨ v ≠ 0 → exec (.lockRelease m i v) s = .next s) ∧
       (m = .mgr ∨ m = .pf0 → ∃ t, exec (.lockFree m v) s = .next t ∧
         lockOwner t.dev.acc j = (if bit v j.val then 0 else lockOwner s.dev.acc j) ∧
         t.dev = { s.dev with acc := { s.dev.acc with locks := t.dev.acc.locks } }) ∧
       (m = .pf1 ∨ m = .sb → exec (.lockFree m v) s = .next s))

/-- R398, R399, R401, R402, R403, R404, R421: The words of mailbox N. A write to an empty H2D fills it, with its writer; one to a
full H2D is dropped and sets OVERRUN; one in the cycle of a flush is discarded with FLUSHED alone. The manager's oldest word
goes into an empty D2H. The receiver's read clears FULL, the read of another master returns the word and leaves FULL; an empty
D2H reads 0. A master's write of MBX_N_IE changes its own bits. The manager reads a request and answers it to its writer. PING
gives the device mode. RING_STOP stops every ring of the function; on MBX_N only the writer's own. FAULT_ACK, MAINTAIN and the
resume of SAFE are for MBX_S alone, MAINTAIN from RUN, its end from MAINTAIN; a reserved TYPE has STATUS 1. Readings that are
the choice of the model: assumptions 118, 130, 131. -/
def Obligations.mailboxes : Prop :=
  (∀ (s : State) (m : Master) (w v : W32) (dst : BitVec 2) (rest : List (W32 × BitVec 2)), s.safe → powered s.dev = true →
       m ≠ .mgr →
       (s.dev.mbxN.flushedAt ≠ some s.dev.dt.dt → s.dev.mbxN.h2dFull = false → exec (.mbxH2dWrite m .n w) s = .next { s with dev := { s.dev with
         mbxN := { s.dev.mbxN with h2d := w, h2dFull := true, wrSrc := m.host } } }) ∧
       (s.dev.mbxN.flushedAt ≠ some s.dev.dt.dt → s.dev.mbxN.h2dFull = true →
         ∃ t, exec (.mbxH2dWrite m .n w) s = .next t ∧ t.dev.mbxN.overrun = true ∧
           t.dev = { s.dev with mbxN := { s.dev.mbxN with overrun := true, overrunAt := t.dev.mbxN.overrunAt } }) ∧
       (s.dev.mbxN.flushedAt = some s.dev.dt.dt →
         ∃ t, exec (.mbxH2dWrite m .n w) s = .next t ∧ t.dev.mbxN.flushed = true ∧ t.dev.mbxN.h2d = s.dev.mbxN.h2d ∧
           t.dev.mbxN.h2dFull = s.dev.mbxN.h2dFull ∧ t.dev.mbxN.overrun = s.dev.mbxN.overrun ∧ t.dev.mbxS = s.dev.mbxS ∧
           t.dev.ports = s.dev.ports) ∧
       (s.dev.mbxN.held = (v, dst) :: rest → s.dev.mbxN.d2hFull = false → s.dev.sys.mgrUp = true → ∃ t,
         exec (.mbxD2hWrite .n) s = .next t ∧ t.dev.mbxN.d2h = v ∧ t.dev.mbxN.d2hFull = true ∧ t.dev.mbxN.d2hDst = dst ∧
         t.dev.mbxN.held = rest ∧ (dst = 3 → bit s.dev.mbxN.ie 2 = true → t.dev.pins.sbIrqN = false) ∧
         t.dev.mbxS = s.dev.mbxS ∧ t.dev.ports = s.dev.ports ∧ t.dev.sys = s.dev.sys) ∧
       (s.dev.mbxN.d2hFull = true → exec (.mbxD2hWrite .n) s = .next s) ∧
       (s.dev.mbxN.d2hFull = true → s.dev.mbxN.d2hDst = 0 ∨ s.dev.mbxN.d2hDst = m.host → ∃ t,
         exec (.mbxD2hRead m .n) s = .next t ∧ t.dev.out = .readData m (s.dev.mbxN.d2h.setWidth 64) :: s.dev.out ∧
         t.dev.mbxN = { s.dev.mbxN with d2hFull := false, pend := t.dev.mbxN.pend } ∧ bit t.dev.mbxN.pend 0 = false ∧
         t.dev = { s.dev with mbxN := t.dev.mbxN, out := t.dev.out, pins := { s.dev.pins with sbIrqN := t.dev.pins.sbIrqN } }) ∧
       (s.dev.mbxN.d2hFull = false ∨ (s.dev.mbxN.d2hDst ≠ 0 ∧ s.dev.mbxN.d2hDst ≠ m.host) →
         exec (.mbxD2hRead m .n) s = .next { s with dev := { s.dev with
           out := .readData m (if s.dev.mbxN.d2hFull then s.dev.mbxN.d2h.setWidth 64 else 0) :: s.dev.out } }) ∧
       (∃ t, exec (.mbxIeWrite m .n v) s = .next t ∧
         (∀ c : Fin 9, bit t.dev.mbxN.ie c.val = if c.val % 3 + 1 = m.host.toNat then bit v c.val else bit s.dev.mbxN.ie c.val) ∧
         t.dev = { s.dev with
           mbxN := { s.dev.mbxN with ie := t.dev.mbxN.ie, pend := t.dev.mbxN.pend },
           pins := { s.dev.pins with sbIrqN := t.dev.pins.sbIrqN } })) ∧
  (∀ (s : State) (b : Box) (w : W32) (f : Fn), (mbx s.dev b).h2d = w →
       (requested s b 1 = true →
         ∃ t, exec (.ping b) s = .next t ∧ replied s t b 0 s.dev.sys.mode.code = true ∧ t.dev.sys = s.dev.sys ∧
           t.dev.ports = s.dev.ports ∧ t.dev.clk = s.dev.clk ∧ t.dev.flt = s.dev.flt) ∧
       (requested s b 2 = true → f = (if bit w 0 then .pf1 else .pf0) →
         ∃ t, exec (.ringStop b) s = .next t ∧ t.dev.sys = s.dev.sys ∧ t.dev.acc = s.dev.acc ∧ t.dev.cfg.stream = s.dev.cfg.stream ∧
           (b = .s ∨ (mbx s.dev b).wrSrc = f.host → replied s t b 0 0 = true ∧ anyRing (t.dev.fn f) = false ∧
             t.dev.host.ops.any (fun o => o.fn == f) = false) ∧
           (b = .n → (mbx s.dev b).wrSrc ≠ f.host → replied s t b 2 0 = true ∧ (t.dev.fn f).sq = (s.dev.fn f).sq ∧
             (t.dev.fn f).cq = (s.dev.fn f).cq ∧ t.dev.host.ops = s.dev.host.ops)) ∧
       (requested s b 3 = true →
         ∃ t, exec (.mbxFaultAck b) s = .next t ∧
           (b = .n → replied s t b 2 0 = true ∧ t.dev.flt = s.dev.flt ∧ t.dev.sys = s.dev.sys) ∧
           (b = .s → replied s t b 0 (min (ackCount s.dev allSources) 0xFFFFF) = true ∧ t.dev.clk = s.dev.clk)) ∧
       (requested s b 4 = true →
         ∃ t, exec (.maintainEntry b) s = .next t ∧
           (b = .n → replied s t b 2 0 = true ∧ t.dev.sys = s.dev.sys ∧ t.dev.ports = s.dev.ports) ∧
           (b = .s → s.dev.sys.mode = .run → replied s t b 0 0 = true ∧ t.dev.sys.mode = .maintain ∧ t.dev.portsRest = true ∧
             t.dev.sys.portsAt = Vector.ofFn fun n => (s.dev.port n).link.st) ∧
           (b = .s → s.dev.sys.mode ≠ .run → replied s t b 3 0 = true ∧ t.dev.sys = s.dev.sys ∧ t.dev.ports = s.dev.ports)) ∧
       (requested s b 5 = true →
         ∃ t, exec (.maintainEnd b) s = .next t ∧
           (b = .n → replied s t b 2 0 = true ∧ t.dev.sys = s.dev.sys ∧ t.dev.ports = s.dev.ports) ∧
           (b = .s → s.dev.sys.mode = .maintain → s.dev.bist.privOp = none → s.dev.bist.privRun = 0 → s.dev.boot.activateOp = none →
             replied s t b 0 0 = true ∧ t.dev.sys.mode = .run) ∧
           (b = .s → s.dev.sys.mode ≠ .maintain → replied s t b 3 0 = true ∧ t.dev.sys = s.dev.sys ∧ t.dev.ports = s.dev.ports)) ∧
       (requested s b 6 = true →
         ∃ t, exec (.safeResume b) s = .next t ∧
           (b = .n → replied s t b 2 0 = true ∧ t.dev.sys = s.dev.sys) ∧
           (b = .s → s.dev.sys.mode ≠ .safe → replied s t b 0 s.dev.sys.mode.code = true ∧ t.dev.sys = s.dev.sys) ∧
           (b = .s → canResume s.dev = true → s.dev.sys.safeToHold = false → s.dev.sys.safeByFence = false →
             replied s t b 0 Mode.run.code = true ∧ t.dev.sys.mode = .run)) ∧
       (requested s b 7 = true ∨ requested s b 0 = true ∨ requested s b 15 = true →
         ∃ t, exec (.reservedMailboxType b) s = .next t ∧ replied s t b 1 0 = true ∧ t.dev.sys = s.dev.sys ∧
           t.dev.ports = s.dev.ports ∧ t.dev.cfg = s.dev.cfg))

/-- R447: The word stream, in HOLD and in the hands of the master that opened it. START opens it with its length; DATA adds a
half-word where its index and the length agree, and is discarded where they do not; COMMIT before all is held has the code 0x0E,
and with all of a valid image held applies it, answers with the code 0 and section 0xFF, and without a REGS section ends HOLD;
ABORT, and 1 s without a word, close it and discard what it held. Outside HOLD, MBX_N gets STATUS 2. Readings that are the
choice of the model: assumption 29. -/
def Obligations.wordStream : Prop :=
  ∀ (s : State) (b : Box) (w : W32) (who : BitVec 2) (len n : Nat) (l : List Section), (mbx s.dev b).h2d = w → (mbx s.dev b).wrSrc = who →
    s.dev.cfg.streamLen = len → s.dev.cfg.streamWords = n →
    (requested s b 12 = true → fld w 23 20 = 0 → s.dev.sys.mode = .hold → s.dev.cfg.stream = none → s.dev.cfg.image = [] →
      24 ≤ fld w 19 0 → fld w 19 0 ≤ 524288 →
      ∃ t, exec (.configStreamStart b) s = .next t ∧ replied s t b 0 0 = true ∧ t.dev.cfg.stream = some (b, who) ∧
        t.dev.cfg.streamLen = fld w 19 0 ∧ t.dev.cfg.streamWords = 0 ∧ t.dev.ports = s.dev.ports) ∧
    (requested s b 13 = true → s.dev.sys.mode = .hold → s.dev.cfg.stream = some (b, who) → n < len →
      fld w 23 16 = n % 256 →
      ∃ t, exec (.configStreamData b) s = .next t ∧ replied s t b 0 (n + 1) = true ∧ t.dev.cfg.streamWords = n + 1 ∧
        t.dev.cfg.image = s.dev.cfg.image ++ [(2 * n, w.setWidth 8), (2 * n + 1, (w >>> 8).setWidth 8)]) ∧
    (requested s b 13 = true → s.dev.sys.mode = .hold → s.dev.cfg.stream = some (b, who) → fld w 23 16 ≠ n % 256 ∨ len ≤ n →
      ∃ t, exec (.configStreamData b) s = .next t ∧ replied s t b 0 n = true ∧ t.dev.cfg = s.dev.cfg) ∧
    (requested s b 12 = true → fld w 23 20 = 1 → s.dev.sys.mode = .hold → s.dev.cfg.stream = some (b, who) → n < len →
      ∃ t, exec (.configStreamCommit b) s = .next t ∧ t.dev.sys.mode = .hold ∧ t.dev.cfg.err = 0x0E ∧
        (mbx t.dev b).held.contains (replyWord w 0 0x0EFF, who) = true ∧ t.dev.cfg.stream = s.dev.cfg.stream) ∧
    (requested s b 12 = true → fld w 23 20 = 1 → s.dev.sys.mode = .hold → s.dev.cfg.stream = some (b, who) → len ≤ n →
      validate s.dev (heldFrom 0 s.dev.cfg.image) = .ok l →
      ∃ t, exec (.configStreamCommit b) s = .next t ∧ t.dev.cfg.err = 0 ∧ t.dev.cfg.section_ = 0xFF ∧ t.dev.cfg.src = 3 ∧
        t.dev.cfg.stream = none ∧ t.dev.cfg.image = [] ∧ (mbx t.dev b).held.contains (replyWord w 0 0x00FF, who) = true ∧
        t.dev.cfg.imageVer = BitVec.ofNat 32
          (fieldAt (heldFrom 0 s.dev.cfg.image) (imageLength (heldFrom 0 s.dev.cfg.image) - 4) 4) ∧
        ((∀ y ∈ l, y.type ≠ 1) → t.dev.sys.mode = .run)) ∧
    (requested s b 12 = true → fld w 23 20 = 2 → s.dev.sys.mode = .hold → s.dev.cfg.stream = some (b, who) →
      ∃ t, exec (.configStreamAbort b) s = .next t ∧ replied s t b 0 0 = true ∧ t.dev.cfg.stream = none ∧
        t.dev.cfg.image = []) ∧
    (s.safe → powered s.dev = true → s.dev.cfg.stream.isSome = true →
      ∃ t, exec .configStreamTimeout s = .next t ∧ t.dev.cfg.stream = none ∧ t.dev.cfg.image = [] ∧
        t.dev = { s.dev with cfg := t.dev.cfg }) ∧
    (requested s .n 12 = true → s.dev.sys.mode ≠ .hold → b = .n →
      ∃ t u v, exec (.configStreamStart .n) s = .next t ∧ exec (.configStreamCommit .n) s = .next u ∧
        exec (.configStreamAbort .n) s = .next v ∧ t.dev.cfg = s.dev.cfg ∧ u.dev.cfg = s.dev.cfg ∧ v.dev.cfg = s.dev.cfg ∧
        (fld w 23 20 = 0 → replied s t .n 2 0 = true) ∧ (fld w 23 20 = 1 → replied s u .n 2 0 = true) ∧
        (fld w 23 20 = 2 → replied s v .n 2 0 = true))

/-! ### The recovery of the manager and of the port controllers -/

/-- R25, R26, R27, R28, R29, R396, R400, R405, R450: A restart of the manager changes no port state and no link, frees the locks it
held, and counts; its end posts MGR_RESTART with that count and makes MGR_STUCK end. MGR_STUCK comes when it is not back, and it
restarts again. A watchdog of a port controller changes neither the state of its port nor its link; the operations that it ran
end with PC_RESET, and the words on the way to it are discarded and counted. Its end brings it back. Readings that are the
choice of the model: assumptions 32, 33. -/
def Obligations.processorRestarts : Prop :=
  (∀ (s : State), s.safe → powered s.dev = true → s.dev.boot.verified = true → s.dev.boot.mgrTrial = false →
       (s.dev.sys.mode = .run ∨ s.dev.sys.mode = .reef) → (group s.dev (.device 4)).level 0 ≤ 1 → (group s.dev (.device 4)).level 1 ≤ 1 →
       bit (group s.dev (.device 4)).force 1 = false →
       (s.dev.sys.mgrUp = true →
         ∃ t, exec .mgrWdog s = .next t ∧ t.dev.sys.mgrUp = false ∧ (∀ n, (t.dev.port n).link = (s.dev.port n).link) ∧
           t.dev.sys.mode = s.dev.sys.mode ∧ t.dev.dt = s.dev.dt ∧ t.dev.hal = s.dev.hal ∧
           (∀ i, lockOwner t.dev.acc i = if lockOwner s.dev.acc i = 1 then 0 else lockOwner s.dev.acc i) ∧
           t.dev.mbxN.h2dFull = false ∧ t.dev.mbxN.d2h = s.dev.mbxN.d2h ∧ t.dev.mbxN.d2hFull = s.dev.mbxN.d2hFull ∧
           t.dev.mbxN.held = [] ∧ t.dev.mbxN.d2hEpoch = s.dev.mbxN.d2hEpoch + 1 ∧
           (s.dev.sys.restarts ≠ 0xFFFF_FFFF → t.dev.sys.restarts = s.dev.sys.restarts + 1)) ∧
       (s.dev.sys.mgrUp = true → exec .mgrStuck s = .next s) ∧
       (s.dev.sys.mgrUp = false → isLive s.dev 0x041 = false →
         ∃ t, exec .mgrStuck s = .next t ∧ isLive t.dev 0x041 = true ∧ t.dev.sys = s.dev.sys) ∧
       (s.dev.sys.mgrUp = false → isLive s.dev 0x041 = true →
         ∃ t, exec .mgrStuck s = .next t ∧ t.dev.sys.mgrUp = false ∧
           (s.dev.sys.restarts ≠ 0xFFFF_FFFF → t.dev.sys.restarts = s.dev.sys.restarts + 1)) ∧
       (s.dev.sys.mgrUp = false → s.dev.host.ops = [] → s.dev.boot.activateOp = none → s.dev.bist.privOp = none →
         ∃ t, exec .mgrRestartDone s = .next t ∧ t.dev.sys = { s.dev.sys with mgrUp := true } ∧ isLive t.dev 0x041 = false ∧
           (∀ n, (t.dev.port n).link = (s.dev.port n).link)) ∧
       (s.dev.sys.mgrUp = true → exec .mgrRestartDone s = .next s)) ∧
  (∀ (s : State) (n : Fin 16) (o : Op), s.safe → powered s.dev = true → forcesDown s.dev.sys.mode = false →
       s.dev.boot.pcTrial = false → (s.dev.port n).on = true →
       (isRaised s.dev (srcPort n 11) = false →
         ∃ t, exec (.pcWdog n) s = .next t ∧ (t.dev.port n).pc = { (s.dev.port n).pc with
             up := false, toPc := 0, flushes := satAdd (s.dev.port n).pc.flushes (s.dev.port n).pc.toPc,
             epochToMgr := (s.dev.port n).pc.epochToMgr + 1, toMgr := (t.dev.port n).pc.toMgr, held := (t.dev.port n).pc.held } ∧ (∀ k, (t.dev.port k).link = (s.dev.port k).link) ∧
           (t.dev.port n).rx = (s.dev.port n).rx ∧ (t.dev.port n).rtx = (s.dev.port n).rtx ∧ t.dev.sys = s.dev.sys ∧
           (findOp s.dev o.handle = some o → pcRuns n o = true → o.final = none → endedWith t o.handle = some 0x001C)) ∧
       ((s.dev.port n).pc.up = false → s.dev.boot.activateOp = none →
         ∃ t, exec (.pcRestartDone n) s = .next t ∧ (t.dev.port n).pc.up = true ∧ (t.dev.port n).pc.toPc = 0 ∧
           (∀ k, (t.dev.port k).link = (s.dev.port k).link) ∧ t.dev.sys = s.dev.sys) ∧
       ((s.dev.port n).pc.up = true → exec (.pcRestartDone n) s = .next s))

/-- R436: A confirmed image whose SVN exceeds the OTP minimum raises that minimum to its SVN, while unused increments remain, which
are 32 in all. The confirmation clears TRIAL in the boot record (R450); without a trial nothing happens. -/
def Obligations.confirmedImage : Prop :=
  ∀ (s : State) (k : FwKind), s.safe → s.dev.sys.mode = .run →
    (onTrial s.dev.boot k = true →
      ∃ t, exec (.firmwareConfirmed k) s = .next t ∧ onTrial t.dev.boot k = false ∧
        t.dev.boot.otpSvn = (if s.dev.boot.otpSvn < (if k = .mgr then s.dev.boot.mgrSvn else s.dev.boot.pcSvn) ∧
          (if k = .mgr then s.dev.boot.mgrSvn else s.dev.boot.pcSvn) ≤ 32
          then (if k = .mgr then s.dev.boot.mgrSvn else s.dev.boot.pcSvn) else s.dev.boot.otpSvn) ∧
        t.dev.ports = s.dev.ports ∧ t.dev.sys = s.dev.sys) ∧
    (onTrial s.dev.boot k = false → exec (.firmwareConfirmed k) s = .next s)

/-! ### Clocks -/

/-- R461, R462, R463, R464, R465, R466, R469: What a lost clock does. A lost active reference moves LPLL, slewing, to the other one
where that is qualified; where it is not, the loss is a trip: the device enters SAFE with its cause, CORE leaves LPLL and DT is
COARSE. A lost candidate is a holdover, in which DT counts on; its limit moves LPLL to the local reference or trips. The
monitors without a trip, the end of a slew, and a forced switch, which counts to 255. The loss of PE_REFCLK and the drift of the
RC oscillator have no effect on the ports. Readings that are the choice of the model: assumptions 135, 136, 183. -/
def Obligations.clockLosses : Prop :=
  (∀ (s : State) (p : Pll), s.safe → s.dev.sys.mode = .run → s.dev.clk.lpll = .locked → s.dev.clk.refAct = primary s.dev →
       s.dev.clk.priStarted = true → (group s.dev (.device 1)).raised = 0 →
       (s.dev.clk.lpllIn = some (.ref (primary s.dev)) → s.dev.clk.altQual = true → s.dev.clk.priQual = true →
         ∃ t, exec (.referenceLoss (primary s.dev)) s = .next t ∧ t.dev.sys = s.dev.sys ∧ t.dev.clk.priQual = false ∧
           t.dev.clk.refAct = otherRef (primary s.dev) ∧ t.dev.clk.lpll = .slew ∧
           t.dev.clk.lpllIn = some (.ref (otherRef (primary s.dev))) ∧ t.dev.dt = s.dev.dt ∧ t.dev.ports = s.dev.ports) ∧
       (s.dev.clk.lpllIn = some (.ref (primary s.dev)) → s.dev.clk.altQual = false → s.dev.clk.lpllCfg = 0x3C00_0000 →
         ∃ t, exec (.referenceLoss (primary s.dev)) s = .next t ∧ t.dev.sys.mode = .safe ∧ t.dev.sys.safeByTrip = true ∧
           t.dev.clk.safeCause = 1 ∧ t.dev.clk.coreSrc = 2 ∧ t.dev.clk.lpll = .off ∧ t.dev.clk.hpll = .off ∧
           t.dev.portsRest = true ∧ t.dev.pins.faultN = false ∧ t.dev.pins.fsyncOut = false ∧
           (s.dev.dt.running = true → t.dev.dt.coarse = true)) ∧
       (s.dev.clk.lpllIn = some .partyWall → s.dev.clk.lpllCfg = 0x5C00_0000 →
         ∃ t, exec .lpllInputLoss s = .next t ∧ t.dev.sys = s.dev.sys ∧ t.dev.clk.lpll = .holdover ∧ t.dev.clk.lpllIn = none ∧
           t.dev.clk.holdTimer = true ∧ bit t.dev.clk.monLive 2 = true ∧ t.dev.dt = s.dev.dt ∧ t.dev.ports = s.dev.ports ∧
           ∃ u, exec .holdoverTimeout t = .next u ∧ u.dev.clk.holdTimer = false ∧
             (s.dev.clk.priQual = true → u.dev.sys = s.dev.sys ∧ u.dev.clk.lpll = .slew ∧
               u.dev.clk.lpllIn = some (.ref (primary s.dev)) ∧ bit u.dev.clk.monLive 2 = false ∧ u.dev.ports = s.dev.ports) ∧
             (s.dev.clk.priQual = false → s.dev.clk.altQual = false → u.dev.sys.mode = .safe ∧ u.dev.clk.safeCause = 4 ∧ u.dev.clk.coreSrc = 2)) ∧
       (s.dev.clk.hpll = .locked → bit s.dev.bist.privRun 1 = false →
         ∃ t, exec (.pllOutputLoss p) s = .next t ∧ t.dev.sys.mode = .safe ∧ t.dev.sys.safeByTrip = true ∧
           t.dev.clk.safeCause = (if p = .lpll then 2 else 3) ∧ t.dev.portsRest = true ∧
           t.dev.clk.coreSrc = (if s.dev.clk.priQual then 1 else 2) ∧ (p = .hpll → t.dev.clk.hpll = .acquire ∧ t.dev.clk.lpll = .locked) ∧
           bit t.dev.clk.monTrip (if p = .lpll then 3 else 4) = true)) ∧
  (∀ s : State, s.safe → powered s.dev = true → s.dev.clk.lpll = .slew →
       (group s.dev (.device 1)).raised = 0 →
       (exec .slewComplete s = .next { s with dev := { s.dev with clk := { s.dev.clk with lpll := .locked } } }) ∧
       (exec .clockSwitchForced s = .next { s with dev := { s.dev with clk := { s.dev.clk with
         forced := if s.dev.clk.forced = 255 then 255 else s.dev.clk.forced + 1 } } }) ∧
       (∃ t, exec .rcDrift s = .next t ∧ bit t.dev.clk.monLive 6 = true ∧ bit t.dev.clk.monTrip 6 = true ∧
         t.dev.sys = s.dev.sys ∧ t.dev.ports = s.dev.ports) ∧
       (∃ t, exec .pcieRefLoss s = .next t ∧ bit t.dev.clk.monLive 5 = true ∧ bit t.dev.clk.monTrip 5 = true ∧
         t.dev.sys = s.dev.sys ∧ t.dev.ports = s.dev.ports ∧
         ∃ u, exec .pcieRefReturn t = .next u ∧ bit u.dev.clk.monLive 5 = false ∧ bit u.dev.clk.monTrip 5 = true ∧
           u.dev.ports = s.dev.ports) ∧
       (∃ t, exec .pcieRefReturn s = .next t ∧ bit t.dev.clk.monLive 5 = false ∧ t.dev.clk.monTrip = s.dev.clk.monTrip ∧
         t.dev.sys = s.dev.sys ∧ t.dev.ports = s.dev.ports))

/-! ### Faults -/

/-- R356, R516, R517, R518, R519, R522, R524, R525, R526, R527, R530: An occurrence of a source that is not raised latches it,
raises it at its default level, and enters it, with its time, in the history, the queue to the manager, and FLT_FIRST where that
is free. One of a raised source escalates up to its cap. A port source at FENCE puts its port in FENCED, a device source at
FENCE the device in SAFE. Occurrences of one tick are entered by descending level, and a hardware and a forced one of the same
source in one tick are one. The manager posts the oldest occurrence to both functions, and to the Attic for a port source.
FLT_FORCE keeps a source of its mask live and raises it as a forced occurrence; only a privileged master writes it. A dump that
is late resets the manager, and the ROM writes it. Readings that are the choice of the model: assumptions 19, 20, 22, 156, 164,
181, 184. -/
def Obligations.faults : Prop :=
  (∀ (s : State) (n : Fin 16) (e : FaultEdge) (o : Occ) (rest : List Occ), s.safe → s.dev.sys.mode = .run →
       ((∀ x ∈ s.dev.flt.hist ++ s.dev.flt.queue, sameTick s.dev x = false) → isRaised s.dev (srcPort n 8) = false → isLive s.dev (srcPort n 8) = false → (s.dev.port n).on = true → e = .moment →
         ∃ t, exec (.faultOccurrence (srcPort n 8) e) s = .next t ∧ isRaised t.dev (srcPort n 8) = true ∧
           bit (group t.dev (.port n)).lat 8 = true ∧ (group t.dev (.port n)).level 8 = 0 ∧
           t.dev.flt.hist.head? = some { stamp := s.dev.stamp, pos := s.dev.rpos, src := srcPort n 8, level := 0 } ∧
           (s.dev.flt.queue.length < 64 → t.dev.flt.queue.getLast? = t.dev.flt.hist.head?) ∧
           (s.dev.flt.first = none → t.dev.flt.first = t.dev.flt.hist.head?) ∧ t.dev.ports = s.dev.ports ∧ t.dev.sys = s.dev.sys) ∧
       (twinOcc s.dev (srcPort n 15) false = none →
         isRaised s.dev (srcPort n 15) = true → (group s.dev (.port n)).level 15 = 1 → isLive s.dev (srcPort n 15) = false →
         (s.dev.port n).on = true → (s.dev.port n).link.st = .up → e = .moment →
         ∃ t, exec (.faultOccurrence (srcPort n 15) e) s = .next t ∧ (group t.dev (.port n)).level 15 = 2 ∧
           (t.dev.port n).link.st = .fenced ∧ t.dev.sys = s.dev.sys) ∧
       (s.dev.flt.hist = o :: rest → sameTick s.dev o = true → (∀ x ∈ rest, sameTick s.dev x = false) → o.src = srcPort n 8 →
         o.level = 0 → isRaised s.dev (srcPort n 5) = false → isLive s.dev (srcPort n 5) = false → (s.dev.port n).on = true → e = .moment →
         ∃ t, exec (.faultOccurrence (srcPort n 5) e) s = .next t ∧
           (t.dev.flt.hist.take 2).map (·.src) = [srcPort n 8, srcPort n 5] ∧ t.dev.flt.total = satInc s.dev.flt.total) ∧
       (twinOcc s.dev (srcPort n 5) false = some o → isLive s.dev (srcPort n 5) = false → (s.dev.port n).on = true → e = .moment →
         ∃ t, exec (.faultOccurrence (srcPort n 5) e) s = .next t ∧ isRaised t.dev (srcPort n 5) = true ∧
           t.dev.flt.total = s.dev.flt.total ∧ t.dev.flt.hist.length = s.dev.flt.hist.length) ∧
       (isLive s.dev (srcPort n 15) = true → e = .moment → exec (.faultOccurrence (srcPort n 15) e) s = .next s) ∧
       ((s.dev.port n).on = false → exec (.faultOccurrence (srcPort n 8) e) s = .next s) ∧
       (isLive s.dev 0x024 = false → isRaised s.dev 0x024 = false →
         ∃ t, exec (.temperatureSample 135) s = .next t ∧ t.dev.sys.mode = .safe ∧ t.dev.sys.safeByFence = true ∧
           t.dev.portsRest = true ∧ isLive t.dev 0x024 = true ∧ isLive t.dev 0x023 = true) ∧
       (isLive s.dev 0x024 = false → isLive s.dev 0x023 = false → exec (.temperatureSample 125) s = .next s)) ∧
  (∀ (s : State) (m : Master) (g : Fin 9) (v : W16) (o : Occ) (rest : List Occ), s.safe → powered s.dev = true →
       (s.dev.flt.queue = o :: rest → s.dev.sys.mgrUp = true →
         ∃ t, exec .faultEventPost s = .next t ∧ t.dev.flt.queue = rest ∧ t.dev.flt.hist = s.dev.flt.hist ∧ t.dev.sys = s.dev.sys ∧
           ((s.dev.fn .pf0).ev.st = .run → ringFull (s.dev.fn .pf0).ev.cfg (s.dev.fn .pf0).ev.prod (s.dev.fn .pf0).ev.cons = false →
             (s.dev.fn .pf0).ev.lost = 0 →
             (sent s t).any (isEvent .pf0 0x0005 (match srcScope o.src with
               | some (.port n) => scopePort n
               | some (.lane k) => scopeLane k
               | _ => 0)) = true)) ∧
       (s.dev.flt.queue = [] ∨ s.dev.sys.mgrUp = false → exec .faultEventPost s = .next s) ∧
       (m = .pf1 ∨ m = .sb → exec (.fltForceWrite m g.val v) s = .next s) ∧
       ((∀ x ∈ s.dev.flt.hist, sameTick s.dev x = false) → m = .mgr ∨ m = .pf0 → v = 1 → g = 3 → (group s.dev (.device 3)).live = 0 → (group s.dev (.device 3)).raised = 0 →
         ∃ t, exec (.fltForceWrite m g.val v) s = .next t ∧ (group t.dev (.device 3)).force = 1 ∧ isLive t.dev 0x030 = true ∧
           isRaised t.dev 0x030 = true ∧ t.dev.flt.hist.head?.map (fun x => (x.src, x.forced)) = some (0x030, true) ∧
           t.dev.sys = s.dev.sys ∧ t.dev.raster = s.dev.raster ∧ t.dev.ports = s.dev.ports) ∧
       (s.dev.flt.halt.pending = true → s.dev.flt.halt.rom = false → s.dev.sys.mode = .safe →
         ∃ t, exec .dumpTimeout s = .next t ∧ t.dev.flt.halt.rom = (s.dev.flt.halt.region.isSome || bit s.dev.flt.cfg 2) ∧
           t.dev.sys.mgrUp = false ∧ t.dev.sys.mode = .safe) ∧
       (s.dev.flt.halt.pending = false → exec .dumpTimeout s = .next s))

/-! ### Power -/

/-- R466, R484, R485, R486: With HOST = 1 a privileged master changes the voltage or the frequency, the voltage never below the
V_MIN of the present frequency and the frequency never above what the voltage carries; what is out of order, out of range, not
permitted or too early makes no change and is recorded in ERR. A raise of the point takes its frequency when the voltage is
reached; without that in 200 µs it does not. A voltage read back more than 15 mV from its set point raises AVS_MISMATCH. On the
RC oscillator the registers refuse the requests. Readings that are the choice of the model: assumption 89. -/
def Obligations.corePower : Prop :=
  ∀ (s : State) (m : Master) (v : W8) (f : BitVec 2) (mv : Nat), s.safe → powered s.dev = true →
    (reachesAll m = false → exec (.avsVoltageRequest m v) s = .next s ∧ exec (.avsFrequencyRequest m f) s = .next s) ∧
    (reachesAll m = true → s.dev.clk.coreSrc = 2 →
      exec (.avsVoltageRequest m v) s = .next { s with dev := accessError s.dev m 0xC024 true } ∧
      exec (.avsFrequencyRequest m f) s = .next { s with dev := accessError s.dev m 0xC024 true }) ∧
    (mayWrite s m = true → s.dev.avs.cfgHost = false →
      exec (.avsVoltageRequest m v) s = .next { s with dev := { s.dev with avs := { s.dev.avs with err := 3 } } }) ∧
    (mayWrite s m = true → f ≠ 3 → s.dev.avs.cfgHost = true → s.dev.avs.busy = true →
      exec (.avsFrequencyRequest m f) s = .next { s with dev := { s.dev with avs := { s.dev.avs with err := 5 } } }) ∧
    (mayWrite s m = true → s.dev.avs.cfgHost = true → s.dev.avs.busy = false → v.toNat < 136 ∨ 172 < v.toNat →
      exec (.avsVoltageRequest m v) s = .next { s with dev := { s.dev with avs := { s.dev.avs with err := 2 } } }) ∧
    (mayWrite s m = true → s.dev.avs.cfgHost = true → s.dev.avs.busy = false → 136 ≤ v.toNat → v.toNat ≤ 172 →
      v.toNat < vMin s.dev.avs s.dev.avs.freq →
      exec (.avsVoltageRequest m v) s = .next { s with dev := { s.dev with avs := { s.dev.avs with err := 1 } } }) ∧
    (mayWrite s m = true → s.dev.avs.cfgHost = true → s.dev.avs.busy = false → 136 ≤ v.toNat → v.toNat ≤ 172 →
      vMin s.dev.avs s.dev.avs.freq ≤ v.toNat → v ≠ s.dev.avs.volt →
      exec (.avsVoltageRequest m v) s = .next { s with dev := { s.dev with
        avs := { s.dev.avs with err := 0, volt := v, busy := true, target := some (v, s.dev.avs.freq) },
        out := .avs v :: s.dev.out } }) ∧
    (mayWrite s m = true → f ≠ 3 → s.dev.avs.cfgHost = true → s.dev.avs.busy = false →
      exec (.avsFrequencyRequest m f) s = .next { s with dev := { s.dev with
        avs := if s.dev.avs.volt.toNat < vMin s.dev.avs f then { s.dev.avs with err := 1 }
          else { s.dev.avs with freq := f, err := 0 } } }) ∧
    (s.dev.avs.target = some (v, f) →
      exec .avsTargetReached s = .next { s with dev := { s.dev with
        avs := { s.dev.avs with freq := f, busy := false, target := none } } } ∧
      (forcesDown s.dev.sys.mode = false → isRaised s.dev 0x020 = false → isLive s.dev 0x020 = false →
        ∃ t, exec .avsTimeout s = .next t ∧ t.dev.avs = { s.dev.avs with busy := false, target := none, err := 4 } ∧
          isRaised t.dev 0x020 = true ∧ t.dev.sys = s.dev.sys ∧ t.dev.ports = s.dev.ports)) ∧
    (s.dev.avs.target = none → exec .avsTargetReached s = .next s ∧ exec .avsTimeout s = .next s) ∧
    (∃ t, exec (.avsReadback mv) s = .next t ∧ t.dev.avs = s.dev.avs ∧
      ((group t.dev (.device 2)).hwLive.getLsbD 1 = true ↔ mv + 15 < 5 * s.dev.avs.volt.toNat ∨ 5 * s.dev.avs.volt.toNat + 15 < mv))

/-- R31, R33, R407, R409, R466, R487, R488, R489, R490, R491, R492, R493, R495, R496, R501: REEF and the way to DEEP. The device
enters REEF from RUN when every port that is not unused rests in Reef, leaves it for RUN at a host access, a fault or a commit,
and starts DEEP entry at the long idle timer where DEEP_IDLE_T is not 0 and a wake source is enabled. A wake before the point of
no return, or in the tick in which the entry would begin, aborts the entry; one after it is latched as late. Past that point the
domains power off, when a SLEEP that began it has been seen complete, both functions stop, and the set-up and the straps stay.
The wake from DEEP, PE_WAKE_N, and the pads. In DEEP an enabled source powers the PLL domain and is latched; one that is not
enabled does nothing. In DEEP the sideband matcher acknowledges its address, and the next byte, and any address once the wake
has begun, is not acknowledged. The sideband's address is 0x38 + SB_ADDR; any other one, and general call, does nothing.
PE_WAKE_N falls back when the link reaches L0 or after 100 ms. A release frees the pads of the domains of its mask that are
powered, and marks any other one; on the RC oscillator its register refuses it. Readings that are the choice of the model:
assumptions 113, 132, 138, 139. -/
def Obligations.deviceReef : Prop :=
  (∀ (s : State) (c : ReefExitCause) (w : WakeSrc) (ratio : Nat) (lost : CellarErr), s.safe →
       (s.dev.sys.mode = .run → devIdle s.dev = true → bit s.dev.pwr.cfg 1 = true → s.dev.avs.deepStep = 0 → s.dev.avs.freq ≠ 3 →
         wakeNow s.dev = none →
         ∃ t, exec .devIdleExpiry s = .next t ∧ t.dev.sys.mode = .reef ∧ (∀ n, (t.dev.port n).link = (s.dev.port n).link) ∧
           (s.dev.avs.cfgHost = false → t.dev.avs.freq = 2 ∧ t.dev.avs.volt = 136) ∧
           (s.dev.avs.cfgHost = true → t.dev.avs = s.dev.avs)) ∧
       (s.dev.sys.mode = .run → devIdle s.dev = false ∨ bit s.dev.pwr.cfg 1 = false → exec .devIdleExpiry s = .next s) ∧
       (s.dev.sys.mode = .run → devIdle s.dev = true → bit s.dev.pwr.cfg 1 = true → s.dev.avs.deepStep = 0 → wakeNow s.dev = some w →
         exec .devIdleExpiry s = .next { s with dev := latchWake s.dev w }) ∧
       (s.dev.sys.mode = .reef →
         ∃ t, exec (.reefExitDevice c) s = .next t ∧ t.dev.sys = { s.dev.sys with mode := .run, gateOvr := t.dev.sys.gateOvr } ∧ t.dev.ports = s.dev.ports ∧
           (s.dev.avs.cfgHost = false → s.dev.avs.volt = 136 → s.dev.avs.freq = 2 → 136 < s.dev.avs.vset.toNat →
             t.dev.avs.volt = s.dev.avs.vset ∧ t.dev.avs.target = some (s.dev.avs.vset, 0) ∧ t.dev.avs.freq = 2)) ∧
       (s.dev.sys.mode = .reef → s.dev.avs.deepStep = 0 → s.dev.pwr.wakeEn ≠ 0 → fld s.dev.pwr.cfg 31 24 ≠ 0 →
         (wakeNow s.dev = none →
           ∃ t, exec .longIdleExpiry s = .next t ∧ t.dev.sys.mode = .reef ∧ t.dev.avs.deepStep = 1 ∧ t.dev.avs.deepOp = none ∧
             ∀ n : Fin 16, t.dev.sys.portsAt[n.val] = (s.dev.port n).link.st) ∧
         ((wakeNow s.dev).isSome = true →
           ∃ t, exec .longIdleExpiry s = .next t ∧ t.dev.avs.deepStep = 0 ∧ t.dev.pwr.aborted = true ∧ t.dev.sys = s.dev.sys)) ∧
       (s.dev.sys.mode = .reef → fld s.dev.pwr.cfg 31 24 = 0 ∨ s.dev.pwr.wakeEn = 0 → exec .longIdleExpiry s = .next s) ∧
       (s.dev.sys.mode = .run ∨ s.dev.sys.mode = .reef → s.dev.avs.deepStep = 1 → wakeEnabled s.dev w = true →
         s.dev.avs.deepOp = none →
         (∃ t, exec (.wakeSourceFire w) s = .next t ∧ t.dev.avs.deepStep = 0 ∧ t.dev.pwr.aborted = true ∧ t.dev.sys.mode = .run ∧
           bit (wakeStat t.dev) (match w with | .sideband => 16 | .pcie => 17 | .line n => n.val) = true) ∧
         ∃ t, exec (.pointOfNoReturn ratio lost) s = .next t ∧ t.dev.avs.deepStep = 2 ∧ t.dev.avs.rcRatio = ratio ∧
           t.dev.sys = s.dev.sys ∧ t.dev.dt = s.dev.dt ∧ ∀ n, (t.dev.port n).link.st ≠ .up ∧ (t.dev.port n).link.st ≠ .reef1) ∧
       (s.dev.sys.mode = .run ∨ s.dev.sys.mode = .reef → s.dev.avs.deepStep = 2 →
         (wakeEnabled s.dev w = true → ∃ t, exec (.wakeSourceFire w) s = .next t ∧ t.dev.pwr.late = true ∧
           t.dev.avs.deepStep = 2 ∧ t.dev.sys = s.dev.sys ∧
           bit (wakeStat t.dev) (match w with | .sideband => 16 | .pcie => 17 | .line n => n.val) = true ∧
           t.dev.avs.wakeBy = if s.dev.avs.wakeBy.isSome then s.dev.avs.wakeBy else some w) ∧
         ∃ t, exec .deepEntryPowerOff s = .next t ∧ t.dev.sys.mode = .deep ∧ t.dev.pwr.coreOn = false ∧ t.dev.pwr.laneOn = false ∧
           t.dev.pwr.pwOn = false ∧ t.dev.pwr.pllOn = s.dev.avs.wakeBy.isSome ∧ (s.dev.avs.deepSent = none → t.dev.dt.dt = s.dev.dt.dt) ∧ t.dev.boot.strap = s.dev.boot.strap ∧
           t.dev.host.ops = [] ∧ (∀ n, anyRing (t.dev.fn n) = false) ∧ t.dev.pwr.padCore = true ∧
           ∀ n, (t.dev.port n).cfg.linkCfg = (s.dev.port n).cfg.linkCfg ∧ (t.dev.port n).snap = (s.dev.port n).snap)) ∧
  (∀ (s : State) (w : WakeSrc) (m : Master) (mask : BitVec 19) (a : BitVec 7), s.safe →
       (wakeEnabled s.dev w = false → exec (.wakeSourceFire w) s = .next s) ∧
       (s.dev.sys.mode = .deep → s.dev.pwr.coreOn = false → wakeEnabled s.dev w = true →
         ∃ t, exec (.wakeSourceFire w) s = .next t ∧ t.dev.pwr.pllOn = true ∧ t.dev.sys.mode = .deep ∧
           bit (wakeStat t.dev) (match w with | .sideband => 16 | .pcie => 17 | .line n => n.val) = true ∧
           t.dev = { s.dev with pwr := t.dev.pwr, avs := { s.dev.avs with
             wakeBy := if s.dev.avs.wakeBy.isSome then s.dev.avs.wakeBy else some w } } ∧ t.dev.pwr.coreOn = false ∧ t.dev.pwr.cfg = s.dev.pwr.cfg ∧
           t.dev.pwr.wakeEn = s.dev.pwr.wakeEn) ∧
       (a ≠ sbAddress s.dev → exec (.sidebandAddressMatch a) s = .next s) ∧
       (sbAddress s.dev).toNat = 0x38 + s.dev.boot.strap.sbAddr.toNat ∧
       (s.dev.sys.mode = .deep → s.dev.pwr.coreOn = false → a = sbAddress s.dev → s.dev.pwr.pllOn = true →
         exec (.sidebandAddressMatch a) s = .next { s with dev := { s.dev with out := .sbAck false :: s.dev.out } }) ∧
       (s.dev.sys.mode = .deep → s.dev.pwr.coreOn = false → bit s.dev.pwr.wakeEn 16 = true → a = sbAddress s.dev →
         s.dev.pwr.pllOn = false →
         exec (.sidebandAddressMatch a) s =
           .next { s with dev := { s.dev with
             out := .sbAck false :: .sbAck true :: s.dev.out,
             pwr := { s.dev.pwr with pllOn := true, wakeSb := true },
             avs := { s.dev.avs with wakeBy := if s.dev.avs.wakeBy.isSome then s.dev.avs.wakeBy else some .sideband } } }) ∧
       (s.dev.sys.mode = .run → s.dev.avs.deepStep = 0 → wakeEnabled s.dev .sideband = false →
         exec (.sidebandAddressMatch a) s = .next s) ∧
       (s.dev.sys.mode = .run → s.dev.avs.deepStep = 0 → ∃ t, exec (.sidebandAddressMatch a) s = .next t ∧
         t.dev = { s.dev with sys := { s.dev.sys with wakeAt := t.dev.sys.wakeAt } }) ∧
       (s.dev.sys.mode = .reef → s.dev.avs.deepStep = 0 → s.dev.avs.cfgHost = true → a = sbAddress s.dev →
         ∃ t, exec (.sidebandAddressMatch a) s = .next t ∧ t.dev.ports = s.dev.ports ∧
           t.dev.sys = { s.dev.sys with mode := .run, wakeAt := t.dev.sys.wakeAt, gateOvr := t.dev.sys.gateOvr }) ∧
       (s.dev.avs.peWake = true →
         exec .peWakeTimeout s = .next { s with dev := { s.dev with
           avs := { s.dev.avs with peWake := false }, pins := { s.dev.pins with peWakeN := true } } } ∧
         exec .peWakeRelease s = .next (if s.dev.host.perst then s else { s with dev := { s.dev with
           avs := { s.dev.avs with peWake := false }, pins := { s.dev.pins with peWakeN := true } } })) ∧
       (s.dev.avs.peWake = false → exec .peWakeTimeout s = .next s ∧ exec .peWakeRelease s = .next s) ∧
       (powered s.dev = true → m = .pf1 ∨ m = .sb → exec (.padRelease m mask) s = .next s) ∧
       (powered s.dev = true → m = .mgr ∨ m = .pf0 → s.dev.clk.coreSrc = 2 →
         exec (.padRelease m mask) s = .next { s with dev := accessError s.dev m 0xC014 true }) ∧
       (s.dev.sys.mode = .run → mayWrite s m = true → s.dev.pwr.laneOn = true → s.dev.pwr.pwOn = false → mask = 0x30000 →
         exec (.padRelease m mask) s = .next { s with dev := { s.dev with pwr := { s.dev.pwr with padLane := false, padErr := true } } }) ∧
       (s.dev.sys.mode = .run → mayWrite s m = true → mask = 0x40000 →
         exec (.padRelease m mask) s = .next { s with dev := { s.dev with pwr := { s.dev.pwr with padCore := false, padErr := false } } }))

/-! ### Host lanes -/

/-- R255, R261, R271, R466: A privileged write of HL_CFG in a powered domain stores its fields; one that enables the lane starts its
receiver and clears its counters, and powers its domain first where that is off. A loopback or a pattern is refused, with ERR,
unless the port is ISOLATED or the lane an unassigned spare. HL_TXEQ takes drives within full drive, and keeps the old ones with
ERR otherwise. Without EN a domain that is off stays off. On the RC oscillator the lane's registers refuse both writes. Readings
that are the choice of the model: assumptions 147, 177. -/
def Obligations.laneSetup : Prop :=
  ∀ (s : State) (m : Fin 20) (mst : Master) (v : W32), s.safe → powered s.dev = true →
    (reachesAll mst = false → exec (.laneEnable mst m v) s = .next s ∧ exec (.loopbackSelect mst m v) s = .next s ∧
      exec (.prbsEnable mst m v) s = .next s ∧ exec (.txeqWrite mst m v) s = .next s) ∧
    (reachesAll mst = true → s.dev.clk.coreSrc = 2 →
      exec (.laneEnable mst m v) s = .next { s with dev := accessError s.dev mst (laneOffset m 0) true } ∧
      exec (.txeqWrite mst m v) s = .next { s with dev := accessError s.dev mst (laneOffset m 4) true }) ∧
    (mayWrite s mst = true → laneDomainOn s.dev m = false → bit v 31 = false → exec (.laneEnable mst m v) s = .next s) ∧
    (mayWrite s mst = true → laneDomainOn s.dev m = false → v &&& 0x00E0_0000 = 0 → bit v 31 = true →
      ∃ t, exec (.laneEnable mst m v) s = .next t ∧ laneDomainOn t.dev m = true ∧ (t.dev.lane m).cfg = v &&& 0xFF00_0000 ∧
        (t.dev.lane m).rx = .squelch ∧ portsBut s t ∧ t.dev.sys = s.dev.sys) ∧
    (mayWrite s mst = true → laneDomainOn s.dev m = true → v &&& 0x00E0_0000 = 0 → bit v 31 = true →
      bit (s.dev.lane m).cfg 31 = false →
      ∃ t, exec (.laneEnable mst m v) s = .next t ∧ (t.dev.lane m).cfg = v &&& 0xFF00_0000 ∧ (t.dev.lane m).rx = .squelch ∧
        (t.dev.lane m).mkBad = 0 ∧ (t.dev.lane m).blkLost = 0 ∧ portsBut s t ∧ t.dev.sys = s.dev.sys ∧
        ∀ k, k ≠ m → (t.dev.lane k).cfg = (s.dev.lane k).cfg) ∧
    (mayWrite s mst = true → laneDomainOn s.dev m = true → bit (s.dev.lane m).cfg 31 = true → bit v 31 = true →
      fld v 23 22 ≠ 0 →
      ∃ t, exec (.loopbackSelect mst m v) s = .next t ∧ portsBut s t ∧
        (mayLoop s.dev m = true → (t.dev.lane m).cfg = v &&& 0xFFE0_0000) ∧
        (mayLoop s.dev m = false → (t.dev.lane m).cfg = v &&& 0xFF00_0000 ||| 0x0010_0000)) ∧
    (mayWrite s mst = true → laneDomainOn s.dev m = true → bit (s.dev.lane m).cfg 31 = true → bit v 31 = true →
      bit v 21 = true → bit (s.dev.lane m).cfg 21 = false →
      ∃ t, exec (.prbsEnable mst m v) s = .next t ∧ portsBut s t ∧
        (mayLoop s.dev m = true → bit (t.dev.lane m).cfg 21 = true ∧ (t.dev.lane m).prbsErrs = 0 ∧ laneTx t.dev m ≠ .data) ∧
        (mayLoop s.dev m = false → bit (t.dev.lane m).cfg 21 = false ∧ bit (t.dev.lane m).cfg 20 = true)) ∧
    (mayWrite s mst = true → laneDomainOn s.dev m = true →
      ∃ t, exec (.txeqWrite mst m v) s = .next t ∧ t.dev = { s.dev with lanes := t.dev.lanes } ∧
        (∀ k, k ≠ m → t.dev.lane k = s.dev.lane k) ∧
        (fld v 15 12 + fld v 11 6 + fld v 4 0 ≤ 63 → fld v 15 12 + fld v 4 0 ≤ fld v 11 6 →
          (t.dev.lane m).txeq = v &&& 0xFFDF ∧ bit (t.dev.lane m).cfg 20 = false) ∧
        (63 < fld v 15 12 + fld v 11 6 + fld v 4 0 ∨ fld v 11 6 < fld v 15 12 + fld v 4 0 →
          (t.dev.lane m).txeq = (s.dev.lane m).txeq ∧ bit (t.dev.lane m).cfg 20 = true))

/-- R244, R248, R254, R256, R257, R261, R263: The receiver of an enabled lane goes from SQUELCH to ADAPT with a signal, to ALIGN
when it has adapted, with the CTLE code of the largest figure of merit or the forced one, and to LOCKED with block lock in a
standard coding, or with the third consecutive correct marker in Byham, in either polarity; the fourth incorrect or missing one
in a row loses the alignment and raises LANE_LOL. A marker whose CRC fails is counted and not used. A near-end loopback does not
hear the pins. LANE_LOS needs a port that is UP or TRAINING; EYE_LOW rises below EYE_MIN. Readings that are the choice of the
model: assumptions 73, 173. -/
def Obligations.laneReceiver : Prop :=
  ∀ (s : State) (m : Fin 20) (n : Fin 16) (eye : W8) (heye : BitVec 6) (dfe : List Int) (scan : Vector (W8 × BitVec 6) 16)
    (w : BitVec 60) (inv : Bool) (x : Option (List Bool)), s.safe → powered s.dev = true → laneRuns s.dev m = true → m.val < 18 →
    (nearLoop s.dev m = true → exec (.hostMarker m x inv) s = .next s ∧ exec (.laneLos m) s = .next s) ∧
    (fld (s.dev.lane m).cfg 28 27 = 0 → fld (s.dev.lane m).cfg 23 21 = 0 →
    ((s.dev.lane m).rx = .squelch →
      ∃ t, exec (.hostSignalDetect m) s = .next t ∧ (t.dev.lane m).rx = .adapt ∧ t.dev.ports = s.dev.ports) ∧
    ((s.dev.lane m).rx = .adapt →
      ∃ t, exec (.laneAdaptDone m scan) s = .next t ∧ (t.dev.lane m).rx = .align ∧ t.dev = { s.dev with lanes := t.dev.lanes } ∧
        ∃ c : Fin 16, (t.dev.lane m).ctle = BitVec.ofNat 4 c.val ∧ (t.dev.lane m).eye = scan[c.val].1 ∧
          (t.dev.lane m).heye = scan[c.val].2 ∧
          (bit (s.dev.lane m).rxCfg 23 = false → ∀ k : Fin 16, merit scan[k.val] ≤ merit scan[c.val]) ∧
          (bit (s.dev.lane m).rxCfg 23 = true → c.val = fld (s.dev.lane m).rxCfg 22 19)) ∧
    ((s.dev.lane m).coding = 2 → (s.dev.lane m).rx = .align → (s.dev.lane m).target = none →
      ∃ t, exec (.blockLockChange m true inv) s = .next t ∧ (t.dev.lane m).rx = .locked ∧ (t.dev.lane m).rxInv = inv ∧
        t.dev.ports = s.dev.ports) ∧
    ((s.dev.lane m).coding = 2 → (s.dev.lane m).rx = .locked → (s.dev.lane m).port = none →
      ∃ t, exec (.blockLockChange m false inv) s = .next t ∧ (t.dev.lane m).rx = .align ∧ isLive t.dev (srcLane m 1) = true) ∧
    ((s.dev.lane m).rx = .align → (s.dev.lane m).target = none →
      ∃ t, exec (.laneRealigned m) s = .next t ∧ (t.dev.lane m).rx = .locked ∧ t.dev.ports = s.dev.ports) ∧
    ((s.dev.lane m).coding = 1 → (s.dev.lane m).rx = .align → 2 ≤ (s.dev.lane m).good → (s.dev.lane m).target = none →
      crc16 44 (w.toNat / 65536) = w.toNat % 65536 →
      ∃ t, exec (.hostMarker m (some (markerWire inv w)) true) s = .next t ∧ (t.dev.lane m).rx = .locked ∧
        (t.dev.lane m).rxInv = inv ∧
        (t.dev.lane m).hostPort = BitVec.ofNat 5 (lineFld w 5 5) ∧ t.dev.sys = s.dev.sys) ∧
    ((s.dev.lane m).coding = 1 → (s.dev.lane m).rx = .locked → (s.dev.lane m).bad < 3 →
      crc16 44 (w.toNat / 65536) ≠ w.toNat % 65536 →
      ∃ t, exec (.hostMarker m (some (markerWire inv w)) true) s = .next t ∧ (t.dev.lane m).rx = .locked ∧
        (t.dev.lane m).bad = (s.dev.lane m).bad + 1 ∧ (t.dev.lane m).hostPort = (s.dev.lane m).hostPort ∧
        ((s.dev.lane m).mkBad ≠ 255 → (t.dev.lane m).mkBad = (s.dev.lane m).mkBad + 1) ∧ t.dev.ports = s.dev.ports) ∧
    ((s.dev.lane m).coding = 1 → (s.dev.lane m).rx = .locked → 3 ≤ (s.dev.lane m).bad → (s.dev.lane m).port = none →
      ∃ t, exec (.hostMarker m none false) s = .next t ∧ (t.dev.lane m).rx = .align ∧ isLive t.dev (srcLane m 1) = true) ∧
    ((s.dev.lane m).port = some n → (s.dev.port n).link.st = .down →
      ∃ t, exec (.laneLos m) s = .next t ∧ (t.dev.lane m).rx = .squelch ∧ t.dev = { s.dev with lanes := t.dev.lanes }) ∧
    ((s.dev.lane m).port = some n → (s.dev.port n).link.st = .up →
      ∃ t, exec (.laneLos m) s = .next t ∧ isLive t.dev (srcLane m 0) = true ∧ (t.dev.lane m).rx = .squelch) ∧
    (laneTx s.dev m = .fill → (s.dev.lane m).port = none →
      ∃ t, exec (.laneTx m) s = .next t ∧ isLive t.dev (srcLane m 2) = true ∧ t.dev.lanes = s.dev.lanes) ∧
    ((s.dev.lane m).rx = .locked → (s.dev.lane m).eye.toNat < fld (s.dev.lane m).rxCfg 31 24 →
      ∃ t, exec (.eyeLow m) s = .next t ∧ isLive t.dev (srcLane m 4) = true ∧ t.dev.lanes = s.dev.lanes) ∧
    ((s.dev.lane m).rx = .locked →
      ∃ t, exec (.eyeMonitorUpdate m eye heye dfe) s = .next t ∧ (t.dev.lane m).eye = eye ∧ (t.dev.lane m).heye = heye ∧
        (t.dev.lane m).dfe = (if bit (s.dev.lane m).rxCfg 18 then (s.dev.lane m).dfe else dfe) ∧ t.dev.ports = s.dev.ports ∧
        ∃ u, exec (.eyeLow m) t = .next u ∧ u.dev.lanes = t.dev.lanes ∧
          (eye.toNat < fld (s.dev.lane m).rxCfg 31 24 → isLive u.dev (srcLane m 4) = true)))

/-- R36, R240, R244, R246, R247, R250, R252, R253, R259: The traffic of a lane. A block of the host goes into the upstream buffer of
the port that the lane's last marker names, and counts; one that finds 32,768 there, or comes past the LIMIT that the host has
been sent, is discarded, counts in DROP and raises CREDIT_VIOL; one for no port of the lane raises LANE_ORDER. The lane sends a
marker after 2,048 blocks, with its number, its port and LIMIT. While the buffer of a 25GBASE-R lane is above 8,192 another
PAUSE joins those that wait for their place. Readings that are the choice of the model: assumptions 6, 74, 75, 147, 172. -/
def Obligations.laneTraffic : Prop :=
  ∀ (s : State) (m : Fin 20) (n : Fin 16) (b : BitVec 65) (x : List Bool) (l : LaneSt), s.safe → powered s.dev = true →
    laneRuns s.dev m = true → fld (s.dev.lane m).cfg 23 21 = 0 → l = s.dev.lane m → x = blockWire l b →
    (upstreamPort s.dev m = some n → l.coding = 2 → l.rx = .locked → (s.dev.port n).link.mode = .gl25 →
      (s.dev.port n).link.st = .down →
      ((s.dev.port n).up.blocks.length < 8000 → (s.dev.port n).up.xoff = false →
        ∃ t, exec (.upstreamBlock m x) s = .next t ∧ (t.dev.port n).up.blocks = (s.dev.port n).up.blocks ++ [b] ∧
          (t.dev.port n).up.count = (s.dev.port n).up.count + 1 ∧ (t.dev.port n).up.drop = (s.dev.port n).up.drop ∧
          (∀ k, k ≠ n → t.dev.port k = s.dev.port k) ∧ (∀ k, k ≠ m → t.dev.lane k = s.dev.lane k) ∧
          t.dev.lane m = { l with rxScr := (t.dev.lane m).rxScr } ∧ t.dev.flt = s.dev.flt ∧ t.dev.out = s.dev.out) ∧
      ((s.dev.port n).up.blocks.length = 32768 →
        ∃ t, exec (.upstreamBlock m x) s = .next t ∧ (t.dev.port n).up.blocks = (s.dev.port n).up.blocks ∧
          ((s.dev.port n).up.drop ≠ 0x7FFF → (t.dev.port n).up.drop = (s.dev.port n).up.drop + 1) ∧
          (isLive s.dev (srcLane m 6) = false → isRaised t.dev (srcLane m 6) = true))) ∧
    (l.coding = 1 → l.rx = .locked → l.rxBad = false → l.rxRun ≤ 8 → startsWith byhamFill x = none →
      (upstreamPort s.dev m = some n → (s.dev.port n).link.mode = .gl25 → (s.dev.port n).link.st = .down →
        (withinLimit (s.dev.port n) = true → (s.dev.port n).up.blocks.length < 8000 → (s.dev.port n).up.xoff = false →
          ∃ t, exec (.upstreamBlock m x) s = .next t ∧ (t.dev.port n).up.blocks = (s.dev.port n).up.blocks ++ [b] ∧
            (t.dev.port n).up.count = (s.dev.port n).up.count + 1 ∧ t.dev.flt = s.dev.flt) ∧
        (withinLimit (s.dev.port n) = false →
          ∃ t, exec (.upstreamBlock m x) s = .next t ∧ (t.dev.port n).up.blocks = (s.dev.port n).up.blocks ∧
            ((s.dev.port n).up.drop ≠ 0x7FFF → (t.dev.port n).up.drop = (s.dev.port n).up.drop + 1) ∧
            (isLive s.dev (srcLane m 6) = false → isRaised t.dev (srcLane m 6) = true))) ∧
      (upstreamPort s.dev m = none → m.val < 18 → isLive s.dev (srcLane m 5) = false →
        ∃ t, exec (.upstreamBlock m x) s = .next t ∧ isRaised t.dev (srcLane m 5) = true ∧ t.dev.ports = s.dev.ports)) ∧
    ((s.dev.port n).up.xoff = true → (s.dev.lane (s.dev.port n).lane).coding = 2 → 8192 < (s.dev.port n).up.blocks.length →
      exec (.pauseRepeat n) s = .next { s with dev := s.dev.modPort n fun p => { p with
        up := { p.up with pauses := p.up.pauses ++ [0xFFFF] } } }) ∧
    ((s.dev.port n).up.xoff = false ∨ (s.dev.lane (s.dev.port n).lane).coding ≠ 2 ∨ (s.dev.port n).up.blocks.length ≤ 8192 →
      exec (.pauseRepeat n) s = .next s) ∧
    (laneTx s.dev m = .data → l.coding = 1 → l.port = some n → l.marks = [] → l.overrun = false →
      (l.sent < 2048 → exec (.downstreamMarker m) s = .next s) ∧
      (2048 ≤ l.sent →
        ∃ t, exec (.downstreamMarker m) s = .next t ∧ (t.dev.lane m).sent = 0 ∧
          (t.dev.port n).up = { (s.dev.port n).up with limit := some (limitOf (s.dev.port n)) } ∧
          .laneMarker (txPin s.dev m).val
            (byhamMarker (txPin s.dev m).val n.val 0 (limitOf (s.dev.port n)).toNat) ∈ sent s t ∧
          t.dev.flt = s.dev.flt ∧ t.dev.sys = s.dev.sys)) ∧
    (laneTx s.dev m = .fill → l.coding = 1 → l.port = none → l.marks = [] → l.overrun = false →
      ∃ t, exec (.downstreamMarker m) s = .next t ∧ .laneFill (txPin s.dev m).val ∈ sent s t ∧
        .laneMarker (txPin s.dev m).val (byhamMarker (txPin s.dev m).val 0x1F 0 0) ∈ sent s t ∧ t.dev.ports = s.dev.ports) ∧
    (laneTx s.dev m = .idle → l.overrun = false → exec (.downstreamMarker m) s = .next s) ∧
    ((s.dev.port n).link.st = .reef1 → (s.dev.port n).link.mode = .gl25 → (s.dev.port n).line.reefAt = none → s.dev.sys.mode = .run →
      bit s.dev.pwr.padPort n.val = false →
      ∃ t, exec (.hostTrafficWake n) s = .next t ∧ (t.dev.port n).link.st = .training) ∧
    ((s.dev.port n).link.st = .down →
      ∃ t, exec (.hostTrafficWake n) s = .next t ∧ (t.dev.port n).link = (s.dev.port n).link ∧ t.dev.lanes = s.dev.lanes)

/-- R95, R241, R242, R244, R245: A marker as the transmitter builds it passes the check of the receiver and gives back every field,
at every value: the lane number, the port, the raster pointer and the credit. Whatever bits are stuffed after a run of at most
8, the receiver that stands at that run gives them back, without a code violation, and no run of 10 is sent; and the descrambler
that stands with the scrambler gives back what was scrambled. -/
def Obligations.markerRoundTrip : Prop :=
  (∀ (bits : List Bool) (last : Bool) (run : Nat), run ≤ 8 →
    (unstuffRun (stuffRun bits last run).1 last run).bits = bits ∧
    (unstuffRun (stuffRun bits last run).1 last run).bad = false ∧
    ∀ c : Bool, ¬ (List.replicate 10 c <:+: (stuffRun bits last run).1)) ∧
  (∀ (bits : List Bool) (r : BitVec 58),
    laneDescramble (laneScramble bits r).1 r = (bits, (laneScramble bits r).2)) ∧
  ∀ (lane port : BitVec 5) (rptr : BitVec 18) (credit : BitVec 16) (w : BitVec 60),
    w = (byhamMarker lane.toNat port.toNat rptr.toNat credit.toNat).setWidth 60 →
      crc16 44 (w.toNat / 65536) = w.toNat % 65536 ∧ lineFld w 0 5 = lane.toNat ∧ lineFld w 5 5 = port.toNat ∧
      lineFld w 10 18 = rptr.toNat ∧ lineFld w 28 16 = credit.toNat ∧
      (byhamMarker lane.toNat port.toNat rptr.toNat credit.toNat).toNat / 2 ^ 60 = byhamComma.toNat

/-! ### Bringing a pair up -/

/-- R89, R90, R92, R94, R99, R102, R107, R219: A link attempt. The end of a back-off starts the next attempt where AUTO_START or a
PORT_UP asks for it. Preparation ends in the beacon, or in auto-negotiation or a forced mode under AN_POLICY = 2. A beacon frame
leaves and counts; the last of the eight standard-mode frames is followed by auto-negotiation. The end of the beacon window, the
timeout of a phase and that of the attempt fail it with LAST_FAIL 1, 13 or the phase, and 8: the port goes to DOWN and waits.
Readings that are the choice of the model: assumptions 59, 60, 62, 141, 152. -/
def Obligations.linkAttempts : Prop :=
  ∀ (s : State) (n : Fin 16) (codes : List W8) (vref rext : Int), s.safe → s.dev.sys.mode = .run → bit s.dev.pwr.padPort n.val = false →
    s.dev.pair.st ≠ .join →
    ((s.dev.port n).link.st = .down → (s.dev.port n).link.backoff = true → linkOk (s.dev.port n).cfg = true →
      ∃ t, exec (.retryBackoffExpiry n) s = .next t ∧ (t.dev.port n).link.backoff = false ∧ t.dev.sys = s.dev.sys ∧
        (autoStart (s.dev.port n).cfg = true ∨ (s.dev.port n).link.wanted = true →
          (t.dev.port n).link.st = .training ∧ (t.dev.port n).link.phase = 0 ∧ (t.dev.port n).on = true ∧
          (t.dev.port n).link.attempt = (s.dev.port n).link.attempt + 1) ∧
        (autoStart (s.dev.port n).cfg = false → (s.dev.port n).link.wanted = false → (t.dev.port n).link.st = .down)) ∧
    ((s.dev.port n).link.backoff = false → exec (.retryBackoffExpiry n) s = .next s) ∧
    (inPhase (s.dev.port n) 0 = true → codes.length = 50 →
      ∃ t, exec (.preparationDone n [] vref rext codes) s = .next t ∧ (t.dev.port n).link.st = .training ∧
        (vrefOff vref = false → rextOff rext = false →
          (t.dev.port n).diag.trims.take 50 = calTarget (s.dev.port n).diag codes) ∧
        (vrefOff vref = true ∨ rextOff rext = true → (t.dev.port n).diag.trims = (s.dev.port n).diag.trims) ∧
        t.dev.sys = s.dev.sys ∧
        (anPolicy (s.dev.port n) ≠ 2 ∨ bit (s.dev.port n).link.stdNow 29 = true →
          (t.dev.port n).link.phase = 1 ∧ (t.dev.port n).train.anRun = (anPolicy (s.dev.port n) == 2)) ∧
        (anPolicy (s.dev.port n) = 2 → bit (s.dev.port n).link.stdNow 29 = false →
          (t.dev.port n).link.phase = 3 ∧ (t.dev.port n).train.pmaRun = true ∧
          (t.dev.port n).link.mode = forceMode (s.dev.port n).link.stdNow)) ∧
    (inPhase (s.dev.port n) 1 = true → (s.dev.port n).train.beacon.toNat < 2000 → (s.dev.port n).train.stdBeacons = none →
      ∃ t, exec (.beaconFrame n) s = .next t ∧ (t.dev.port n).train.beacon = (s.dev.port n).train.beacon + 1 ∧
        (sent s t) = [.beacon n (beaconLevels (beaconInfo (hubModes (s.dev.port n)) (roleCode s.dev).toNat (devId s.dev).toNat n.val
          s.dev.pair.pepoch.toNat (s.dev.port n).train.beacon.toNat (s.dev.port n).link.attempt.toNat))] ∧
        (t.dev.port n).link = (s.dev.port n).link ∧ t.dev.sys = s.dev.sys) ∧
    (inPhase (s.dev.port n) 1 = true → (s.dev.port n).train.stdBeacons = some 1 →
      ∃ t, exec (.beaconFrame n) s = .next t ∧ (t.dev.port n).train.anRun = true ∧ (t.dev.port n).link.phase = 1 ∧
        (t.dev.port n).std.advert = BitVec.ofNat 8 (stdModes (hubModes (s.dev.port n)) &&& partnerModes (s.dev.port n))) ∧
    (inPhase (s.dev.port n) 1 = true → (s.dev.port n).link.fast = false → (s.dev.port n).train.stdBeacons = none →
      ∃ t, exec (.beaconWindowExpiry n) s = .next t ∧ t.dev.sys = s.dev.sys ∧
        (anPolicy (s.dev.port n) = 1 ∨ stdModes (hubModes (s.dev.port n)) = 0 → (t.dev.port n).link.st = .down ∧
          (t.dev.port n).link.lastFail = 1 ∧ (t.dev.port n).link.backoff = true) ∧
        (anPolicy (s.dev.port n) = 0 → stdModes (hubModes (s.dev.port n)) ≠ 0 → (t.dev.port n).link.st = .training ∧
          (t.dev.port n).train.anRun = true)) ∧
    ((s.dev.port n).link.st = .training → (phaseTicks (s.dev.port n)).isSome = true → (s.dev.port n).link.fast = false →
      (s.dev.port n).train.abbrev_ = false → (s.dev.port n).link.phase ≠ 1 →
      ∃ t, exec (.phaseTimeout n) s = .next t ∧ (t.dev.port n).link.st = .down ∧ (t.dev.port n).link.backoff = true ∧
        (t.dev.port n).link.lastFail = (if (s.dev.port n).link.phase = 0 then 13 else (s.dev.port n).link.phase) ∧
        (t.dev.port n).link.f = (s.dev.port n).link.f + 1) ∧
    (phaseTicks (s.dev.port n) = none → exec (.phaseTimeout n) s = .next s) ∧
    ((s.dev.port n).link.st = .training → (s.dev.port n).link.attemptTimer = true →
      ∃ t, exec (.attemptTimeout n) s = .next t ∧ (t.dev.port n).link.st = .down ∧ (t.dev.port n).link.lastFail = 8 ∧
        (t.dev.port n).link.backoff = true ∧ t.dev.dt = s.dev.dt) ∧
    ((s.dev.port n).link.attemptTimer = false → exec (.attemptTimeout n) s = .next s)

/-- R95, R99, R107, R108, R111, R113, R117, R118, R119, R124: Training. The third answer in a row that is correct and the hub's own
names the partner, and the first mode in common from TOP to FLOOR becomes the target; any other answer counts and starts the row
again. The superframe START departs begins phase 3; phase 3 ends in phase 4 with a margin of 2.0 dB, and of 1.0 dB in a fast
retrain, where it lasts at least 4 epochs, and at the floor goes on from 1.0 dB with LOW_MARGIN; two acknowledgements end phase
4, and the superframe SWITCH, echoed, makes the PAM4 switch. Readings that are the choice of the model: assumptions 60, 61, 62,
82, 162. -/
def Obligations.training : Prop :=
  ∀ (s : State) (n : Fin 16) (sync : W64) (info : BitVec 192) (raw tsb : BitVec 256) (r : TrainResult) (m : LineMode) (inv : Bool)
    (a : Answer) (margin : Int) (trip : Option Nat), s.safe →
    s.dev.sys.mode = .run → bit s.dev.pwr.padPort n.val = false →
    (inPhase (s.dev.port n) 1 = true → (s.dev.port n).link.fast = false → (s.dev.port n).train.stdBeacons = none →
      inv = ((s.dev.port n).train.rxInv || sync == ~~~answerSync) → a = parseAnswer (if inv then ~~~info else info) →
      ((s.dev.port n).train.answers = 2 → sync = (if inv then ~~~answerSync else answerSync) → a.crcOk = true → a.port = n.val →
        a.devid = (devId s.dev).toNat → a.attempt = (s.dev.port n).link.attempt.toNat → targetMode s.dev n a.modes = some m →
        ∃ t, exec (.answerFrame n sync info) s = .next t ∧ (t.dev.port n).link.phase = 2 ∧ (t.dev.port n).link.mode = m ∧
          (t.dev.port n).link.polInv = inv ∧
          (t.dev.port n).link.partnerValid = true ∧ fld (t.dev.port n).link.partner 31 24 = a.modes ∧
          fld (t.dev.port n).link.partner 15 0 = a.vendor ∧ t.dev.sys = s.dev.sys) ∧
      (a.crcOk = false →
        exec (.answerFrame n sync info) s = .next { s with dev := s.dev.modPort n fun p => { p with
          link := { p.link with polInv := inv },
          train := { p.train with rxInv := inv, badFrames := p.train.badFrames + 1, answers := 0, ulocks := 0 } } })) ∧
    (inPhase (s.dev.port n) 2 = true → (s.dev.port n).train.start = some (s.dev.port n).train.useq →
      (s.dev.port n).train.dropStd = 0 → (s.dev.port n).train.toneOn = false → (s.dev.port n).link.mode = .gl25 →
      ∃ t, exec (.upstreamSuperframeStart n) s = .next t ∧ (t.dev.port n).link.phase = 3 ∧
        (t.dev.port n).train.useq = (s.dev.port n).train.useq + 1 ∧ (sent s t).length = 1 ∧ t.dev.sys = s.dev.sys) ∧
    (inPhase (s.dev.port n) 3 = true → r.ntap.toNat ≤ 24 → r.taps.length = 24 → margin = (s16 (marginOf (s.dev.port n).link.mode r.errSq r.symbols 30)).toInt →
      ((s.dev.port n).link.fast = false →
      (20 ≤ margin → ∃ t, exec (.downstreamTrainingDone n r) s = .next t ∧ (t.dev.port n).link.phase = 4 ∧
        (t.dev.port n).rx.live = (s.dev.port n).rx.live ∧ (t.dev.port n).line.ntap = r.ntap ∧
        (t.dev.port n).line.taps = r.taps ∧ (t.dev.port n).line.path = pathOf r.roundTrip r.turn.toNat ∧
        (t.dev.port n).link.marginCur.toInt = margin ∧
        (t.dev.port n).link.polInv = decide (r.correlation < 0) ∧ (t.dev.port n).train.pcSet = (s.dev.port n).train.pcSet + 1) ∧
      (margin < 20 → nextDown (s.dev.port n) = none → 10 ≤ margin → bit (s.dev.port n).link.cfgNow 4 = true →
        isRaised s.dev (srcPort n 0) = false →
        ∃ t, exec (.downstreamTrainingDone n r) s = .next t ∧ (t.dev.port n).link.phase = 4 ∧
          (t.dev.port n).link.lowMargin = true) ∧
      (margin < 10 → nextDown (s.dev.port n) = none →
        ∃ t, exec (.downstreamTrainingDone n r) s = .next t ∧ (t.dev.port n).link.st = .down ∧
          (t.dev.port n).link.lastFail = 9) ∧
      (margin < 20 → nextDown (s.dev.port n) = some m → m ≠ .t10g →
        ∃ t, exec (.downstreamTrainingDone n r) s = .next t ∧ (t.dev.port n).link.phase = 3 ∧ (t.dev.port n).link.mode = m)) ∧
      ((s.dev.port n).link.fast = true →
        (margin < 10 → ∃ t, exec (.downstreamTrainingDone n r) s = .next t ∧ (t.dev.port n).link.st = .down ∧
          (t.dev.port n).link.lastFail = 10) ∧
        (10 ≤ margin → ∃ t, exec (.downstreamTrainingDone n r) s = .next t ∧ (t.dev.port n).link.phase = 4 ∧
          (s.dev.dt.running = true → (s.dev.port n).link.phaseAt + 38400 ≤ t.dev.dt.dt)))) ∧
    (inPhase (s.dev.port n) 4 = true → tsb = tsbOf (s.dev.port n) raw → (parseTsb tsb).crcOk = true →
      (parseTsb tsb).attempt = (s.dev.port n).link.attempt.toNat → (parseTsb tsb).seedAck = true →
      (parseTsb tsb).pcAck = some (s.dev.port n).train.pcSet → (s.dev.port n).train.acks = 1 →
      ∃ t, exec (.trainingStatusBlock n ⟨raw, trip⟩) s = .next t ∧ (t.dev.port n).link.phase = 5 ∧
        (t.dev.port n).train.switch = some (placeUseq (s.dev.port n).train.useq 8) ∧
        (t.dev.port n).line.turn = (parseTsb tsb).turn) ∧
    (inPhase (s.dev.port n) 5 = true → (s.dev.port n).train.switch = some (s.dev.port n).train.useq →
      (s.dev.port n).train.echoed = true → (s.dev.port n).train.dropStd = 0 → (s.dev.port n).train.toneOn = false →
      (s.dev.port n).link.mode = .gl25 →
      ∃ t, exec (.upstreamSuperframeStart n) s = .next t ∧ (t.dev.port n).link.phase = 6 ∧ (t.dev.port n).train.useq = 1 ∧
        ((s.dev.port n).rtx.draining = false → (t.dev.port n).rtx.entries = []))

/-! ### Downstream reception -/

/-- R65, R73, R114, R185, R186, R188, R195, R196: The reorder buffer of an UP port. A correct codeword takes the entry of its
identity, an uncorrectable one leaves it missing; a resent copy fills the entry it names and counts as recovered. At its playout
a correct identity gives its 50 blocks, a retransmission slot idle blocks, and a missing one an errored block sequence, never
the content of an uncorrectable codeword; the entry is free. A request names each missing identity, in the service codeword that
then leaves. 16 correct codewords in a row give FEC lock. Readings that are the choice of the model: assumptions 68, 69, 70,
174. -/
def Obligations.reorderBuffer : Prop :=
  ∀ (s : State) (n : Fin 16) (seq : Seq) (slot : BitVec 4) (y : List Int) (k : Nat) (data msg : BitVec 3250) (e : REntry)
      (x : SlotDesc) (trip : Option Nat), s.safe →
    s.dev.sys.mode = .run → (s.dev.port n).link.mode = .gl25 → (s.dev.port n).link.st = .up →
    (slot.toNat ≠ 0 → slot.toNat < 15 → descOf (s.dev.port n).rtx seq slot = none → findEntry (s.dev.port n).rtx seq slot = none →
      (s.dev.port n).rtx.entries.length < 1152 →
      (decoded (s.dev.port n) seq slot y = some (k, data) →
        ∃ t, exec (.codewordReceived n seq slot (.symbols y) ⟨trip, false⟩) s = .next t ∧
        findEntry (t.dev.port n).rtx seq slot = some { seq := seq, slot := slot, data := some data, raw := some data } ∧
        (t.dev.port n).rtx.counters[0] = (s.dev.port n).rtx.counters[0] + 1 ∧
        (t.dev.port n).rtx.counters[3] = (s.dev.port n).rtx.counters[3] ∧ (t.dev.port n).train.badRun = 0 ∧
        t.dev.sys = s.dev.sys) ∧
      (decoded (s.dev.port n) seq slot y = none → (s.dev.port n).train.badRun < 7 →
        ∃ t, exec (.codewordReceived n seq slot (.symbols y) ⟨trip, false⟩) s = .next t ∧
          findEntry (t.dev.port n).rtx seq slot = some { seq := seq, slot := slot, data := none } ∧
          (t.dev.port n).rtx.counters[3] = (s.dev.port n).rtx.counters[3] + 1 ∧
          (t.dev.port n).train.badRun = (s.dev.port n).train.badRun + 1 ∧ (t.dev.port n).link.st = .up) ∧
      (decoded (s.dev.port n) seq slot y = none → (s.dev.port n).train.badRun = 7 → bit s.dev.pwr.padPort n.val = false →
        (s.dev.port n).on = true → isRaised s.dev (srcPort n 8) = false →
        ∃ t, exec (.codewordReceived n seq slot (.symbols y) ⟨trip, false⟩) s = .next t ∧ (t.dev.port n).link.st = .training)) ∧
    (slot.toNat < 15 → descOf (s.dev.port n).rtx seq slot = some x → x.1 = true → x.2.1 ≠ 0 →
      isRtx (s.dev.port n).rtx (targetOf seq x).1 (targetOf seq x).2 = false → findEntry (s.dev.port n).rtx seq slot = none →
      findEntry (s.dev.port n).rtx (targetOf seq x).1 (targetOf seq x).2 = some e → e.data = none →
      (s.dev.port n).rtx.entries.length < 1152 → (targetOf seq x) ≠ (seq, slot) → slot.toNat ≠ 0 →
      decoded (s.dev.port n) seq slot y = some (k, data) →
      ∃ t, exec (.codewordReceived n seq slot (.symbols y) ⟨trip, false⟩) s = .next t ∧
        (findEntry (t.dev.port n).rtx (targetOf seq x).1 (targetOf seq x).2).bind (·.data) = some data ∧
        (t.dev.port n).rtx.counters[6] = (s.dev.port n).rtx.counters[6] + 1) ∧
    (findEntry (s.dev.port n).rtx seq slot = some e → slot.toNat < 15 → laneTx s.dev (s.dev.port n).lane = .data →
      (s.dev.port n).fresh.waiting = [] → (s.dev.port n).rtx.wAct = 0 → (s.dev.port n).rtx.burst = none →
      (s.dev.port n).up.pauses = [] →
      ∃ t, exec (.playout n seq slot) s = .next t ∧ findEntry (t.dev.port n).rtx seq slot = none ∧
        (isRtx (s.dev.port n).rtx seq slot = false → e.data = some data →
          Output.laneBlocks (txPin s.dev (s.dev.port n).lane).val (payloadBlocks data) ∈ sent s t ∧
          (t.dev.port n).rtx.counters[7] = (s.dev.port n).rtx.counters[7]) ∧
        (isRtx (s.dev.port n).rtx seq slot = false → e.data = none →
          Output.laneErrored (txPin s.dev (s.dev.port n).lane).val 50 ∈ sent s t ∧
          (t.dev.port n).rtx.counters[7] = (s.dev.port n).rtx.counters[7] + 1 ∧ (t.dev.port n).rtx.episode.isSome = true) ∧
        (isRtx (s.dev.port n).rtx seq slot = true →
          Output.laneIdle (txPin s.dev (s.dev.port n).lane).val 50 ∈ sent s t)) ∧
    (findEntry (s.dev.port n).rtx seq slot = none → exec (.playout n seq slot) s = .next s) ∧
    ((s.dev.port n).line.svc = some msg → (s.dev.port n).rtx.newest = some (seq + 5) → (s.dev.port n).rtx.wAct ≠ 0 →
      e ∈ (s.dev.port n).rtx.entries → e.seq = seq → e.data = none → isRtx (s.dev.port n).rtx e.seq e.slot = false →
      isDue (s.dev.port n).rtx e.seq e.slot = false →
      ∃ t, exec (.reqMapBuild n) s = .next t ∧ (t.dev.port n).line.svc = none ∧ (t.dev.port n).rtx.reqBase = seq + 5 - 63 ∧
        bit (t.dev.port n).rtx.reqMap (16 * 58 + e.slot.toNat) = true ∧
        sent s t = [.upService n (codewordLevels
          (msg ||| ((t.dev.port n).rtx.reqBase.setWidth 3250 <<< 3050) |||
            (BitVec.ofNat 3250 (revBits 1024 (t.dev.port n).rtx.reqMap.toNat) <<< 2026))
          (s.dev.port n).line.svcScr)]) ∧
    ((s.dev.port n).line.svc = none → exec (.reqMapBuild n) s = .next s)

/-- R36, R61, R70, R107, R114, R117, R145, R146, R147, R148, R149, R151, R152, R193, R196, R198, R203, R222: What ends or watches a
reception. FEC lock lost makes an UP port train, and the drain of its buffer then ends with nothing held. FEC lock needs 16
correct codewords in a row. A loss episode ends in one event and one record. An uncorrectable frame of a standard mode gives
error blocks on the lane, a frame in a Gletik mode nothing. A window of 64 superframes over the reserve counts and raises
LOAD_VIOL. A stream without a new frame is stale. The receiver. A margin window gives MARGIN_CUR and the live coefficients that
its clocks leave: a QUIET signal through the window freezes them, and the echo canceller adapts only while the hub sends. A loss
beyond REVERT_LOSS while the traffic is not rich puts every block back to its anchor; a copy held for 100 ms goes into the live
set. In phase 7 the eighth service codeword in a row brings the port UP where retransmission is off. Readings that are the
choice of the model: assumptions 71, 72, 82, 120, 145, 165, 167, 168. -/
def Obligations.reception : Prop :=
  (∀ (s : State) (n : Fin 16) (k : Fin 4) (j : Nat) (seq w : Seq) (slot : BitVec 4) (y : List Int) (data : BitVec 3250)
         (f : FrameResult) (trip : Option Nat), s.safe →
       s.dev.sys.mode = .run → (s.dev.port n).on = true →
       ((s.dev.port n).link.st = .up → (s.dev.port n).link.mode.gletik = true → bit s.dev.pwr.padPort n.val = false →
         isRaised s.dev (srcPort n 8) = false →
         ∃ t, exec (.fecLockLossTimeout n) s = .next t ∧ (t.dev.port n).link.st = .training ∧ (t.dev.port n).train.fecLock = false) ∧
       ((s.dev.port n).link.st ≠ .up → switchedNow s.dev (s.dev.port n) = none → exec (.fecLockLossTimeout n) s = .next s) ∧
       ((s.dev.port n).rtx.draining = true →
         ∃ t, exec (.drainEnd n) s = .next t ∧ (t.dev.port n).rtx.draining = false ∧ (t.dev.port n).rtx.entries = [] ∧
           (t.dev.port n).link.st = (s.dev.port n).link.st) ∧
       ((s.dev.port n).rtx.draining = false → exec (.drainEnd n) s = .next s) ∧
       (inPhase (s.dev.port n) 6 = true → (s.dev.port n).train.goodRun = 15 → (s.dev.port n).train.locked = false →
         (s.dev.port n).train.fecLock = false → (s.dev.port n).rtx.draining = false → (s.dev.port n).link.mode = .gl25 →
         slot.toNat ≠ 0 →
         (decoded (s.dev.port n) seq slot y = some (j, data) →
           ∃ t, exec (.codewordReceived n seq slot (.symbols y) ⟨trip, false⟩) s = .next t ∧ (t.dev.port n).train.fecLock = true) ∧
         (decoded (s.dev.port n) seq slot y = none →
           ∃ t, exec (.codewordReceived n seq slot (.symbols y) ⟨trip, false⟩) s = .next t ∧ (t.dev.port n).train.fecLock = false ∧
           (t.dev.port n).train.goodRun = 0)) ∧
       ((s.dev.port n).link.mode.std = true → (s.dev.port n).link.st = .up → laneTx s.dev (s.dev.port n).lane = .data →
         (s.dev.port n).up.pauses = [] →
         ∃ t, exec (.codewordReceived n seq slot (.frame (.uncorrectable j)) ⟨trip, false⟩) s = .next t ∧
           Output.laneErrored (txPin s.dev (s.dev.port n).lane).val j ∈ sent s t ∧
           (t.dev.port n).rtx.counters[3] = (s.dev.port n).rtx.counters[3] + 1 ∧ (t.dev.port n).rtx.entries = (s.dev.port n).rtx.entries) ∧
       ((s.dev.port n).link.mode.std = false → exec (.codewordReceived n seq slot (.frame f) ⟨trip, false⟩) s = .next s) ∧
       ((s.dev.port n).rtx.episode.isSome = true →
         ∃ t, exec (.lossEpisodeEnd n) s = .next t ∧ (t.dev.port n).rtx.episode = none ∧ (t.dev.port n).link = (s.dev.port n).link ∧
           ((s.dev.fn .pf0).ev.st = .run → ringFull (s.dev.fn .pf0).ev.cfg (s.dev.fn .pf0).ev.prod (s.dev.fn .pf0).ev.cons = false →
             (s.dev.fn .pf0).ev.lost = 0 → s.dev.sys.mgrUp = true → (sent s t).any (isEvent .pf0 0x0010 (scopePort n)) = true)) ∧
       ((s.dev.port n).rtx.episode = none → exec (.lossEpisodeEnd n) s = .next s) ∧
       ((s.dev.port n).rtx.newest = some w → w.toNat % 64 = 63 → (s.dev.port n).link.mode = .gl25 → bit (s.dev.port n).cfg.rtxCfg 0 = true → (s.dev.port n).rtx.winUp = true →
         (s.dev.port n).rtx.winRtx = false → (s.dev.port n).rtx.prevRtx = false → (s.dev.port n).link.st = .up →
         isLive s.dev (srcPort n 2) = false → isRaised s.dev (srcPort n 2) = false →
         ∃ t, exec (.loadWindowEnd n) s = .next t ∧ t.dev.sys = s.dev.sys ∧ (t.dev.port n).link = (s.dev.port n).link ∧
           (t.dev.port n).rtx.busy = 0 ∧
           ((s.dev.port n).rtx.resAct = 12 → (s.dev.port n).rtx.busy ≤ 902 → t.dev.flt = s.dev.flt ∧
             (t.dev.port n).rtx.counters[14] = (s.dev.port n).rtx.counters[14]) ∧
           ((s.dev.port n).rtx.resAct = 12 → 902 < (s.dev.port n).rtx.busy → isRaised t.dev (srcPort n 2) = true ∧
             (t.dev.port n).rtx.counters[14] = (s.dev.port n).rtx.counters[14] + 1)) ∧
       (bit (s.dev.port n).fresh.armed k.val = true → bit (s.dev.port n).cfg.freshCfg 0 = true →
         bit (s.dev.port n).cfg.freshCfg (8 + k.val) = true → (s.dev.port n).link.st = .up → freshLimit s.dev (s.dev.port n) ≠ 0 →
         isRaised s.dev (srcPort n (3 + k.val)) = false →
         ∃ t, exec (.freshnessTimeout n k) s = .next t ∧ bit (t.dev.port n).fresh.stale k.val = true ∧
           isLive t.dev (srcPort n (3 + k.val)) = true) ∧
       (bit (s.dev.port n).fresh.armed k.val = false → exec (.freshnessTimeout n k) s = .next s)) ∧
  (∀ (s : State) (n : Fin 16) (w : List RxClock) (energy trained : Nat) (l : List Int) (msg : BitVec 3250)
         (roundTrip : Option Nat), s.safe → s.dev.sys.mode = .run →
       ((s.dev.port n).link.st = .down → exec (.marginUpdate n w) s = .next s) ∧
       ((s.dev.port n).link.st = .training → (s.dev.port n).link.phase = 3 →
         ∃ t, exec (.marginUpdate n w) s = .next t ∧ (t.dev.port n).link.marginCur = s16 (windowMargin s n w) ∧
           (t.dev.port n).rx.live = (windowPort s n w).rx.live ∧ (t.dev.port n).link.st = .training ∧ t.dev.sys = s.dev.sys ∧
           ((s.dev.port n).rx.richWas = .quiet → (s.dev.port n).rx.turns = [] →
             (t.dev.port n).rx.live = (s.dev.port n).rx.live) ∧
           (rxSending (s.dev.port n) = false → (t.dev.port n).rx.live.ec = (s.dev.port n).rx.live.ec) ∧
           ∀ k, k ≠ n → t.dev.port k = s.dev.port k) ∧
       ((s.dev.port n).link.st = .up → windowMargin s n w ≤ (s.dev.port n).rx.anchorMargin.toInt - revertLoss (s.dev.port n).cfg →
         (s.dev.port n).rx.rich ≠ .high → averageLow (windowPort s n w) = false → (s.dev.port n).rx.margins.length < 15 →
         (s.dev.port n).rx.revertAt = [] → (s.dev.port n).link.mode = .gl25 →
         ∃ t, exec (.marginUpdate n w) s = .next t ∧ (t.dev.port n).rx.live = (s.dev.port n).rx.anchor ∧
           (t.dev.port n).rx.anchor = (s.dev.port n).rx.anchor ∧
           ((s.dev.port n).rx.reverts ≠ 255 → (t.dev.port n).rx.reverts = (s.dev.port n).rx.reverts + 1)) ∧
       ((s.dev.port n).link.st = .up → (s.dev.port n).rx.held = true →
         ∃ t, exec (.heldUpdateTimeout n) s = .next t ∧ (t.dev.port n).rx.held = false ∧
           (t.dev.port n).rx.live.ffe = (s.dev.port n).rx.shadow.ffe ∧ (t.dev.port n).rx.live.dfe = (s.dev.port n).rx.shadow.dfe ∧
           (t.dev.port n).rx.live.ec = (s.dev.port n).rx.live.ec ∧ t.dev = s.dev.setPort n (t.dev.port n)) ∧
       ((s.dev.port n).rx.held = false → exec (.heldUpdateTimeout n) s = .next s) ∧
       (exec (.slowPeriodExpiry n) s = .next { s with
         dev := s.dev.modPort n fun p => { p with rx := { p.rx with slow := false } } }) ∧
       (exec (.activityStateChange n energy trained l) s = .next { s with
         dev := s.dev.modPort n fun p => setRich s.dev.dt.dt p (classify p energy trained l) }) ∧
       (inPhase (s.dev.port n) 7 = true → (s.dev.port n).link.mode = .gl25 → (s.dev.port n).rtx.draining = false →
         (parseService msg).ver ≠ 1 →
         ∃ t, exec (.downstreamServiceCodeword n msg roundTrip) s = .next t ∧ (t.dev.port n).train.svcRun = 0 ∧
           (t.dev.port n).rtx.counters[11] = (s.dev.port n).rtx.counters[11] + 1 ∧ (t.dev.port n).link = (s.dev.port n).link) ∧
       (inPhase (s.dev.port n) 7 = true → (s.dev.port n).link.mode = .gl25 → (s.dev.port n).rtx.draining = false →
         (parseService msg).ver = 1 →
         bit (s.dev.port n).link.cfgNow 6 = false → (s.dev.port n).train.svcRun = 7 → (s.dev.port n).on = true →
         (windowAtUp (s.dev.port n)).1 = 0 → s.dev.flt.port[n.val].raised = 0 →
         ∃ t, exec (.downstreamServiceCodeword n msg roundTrip) s = .next t ∧ (t.dev.port n).link.st = .up ∧ (t.dev.port n).link.fails = 0 ∧
           (t.dev.port n).rtx.wAct = 0))

/-! ### Shroud -/

/-- R149, R162, R163, R164, R165, R166: The states of a filter outside TRAINING, and the weight from which it ramps. A source that
turns valid starts a filter that is OUT, or was KEPT under another tag, from zero coefficients, and ramps in one that is KEPT or
ramping out under its tag; a source that is no longer valid ramps out one that subtracts and ends one that does not, or that
left WAIT in the same tick. A filter that comes to IN keeps its coefficients as its anchor. 2^24 symbols without acceptance make
it WEAK, a second starts it again; a ramp ends in IN or KEPT; KEEP_T ends KEPT. A leave ends with what it deferred. Readings
that are the choice of the model: assumptions 79, 83, 128, 143, 165, 166. -/
def Obligations.shroudFilters : Prop :=
  ∀ (s : State) (n src : Fin 16) (far : Bool) (f : Filt) (l : Leave), s.safe → powered s.dev = true → n ≠ src →
    f = filt (s.dev.port n) src far → (s.dev.port n).link.st ≠ .training →
    (srcValid s.dev src far = true → filterUsed s.dev n src far = true →
      ∃ t, exec (.crosstalkSourceValid src far) s = .next t ∧
        (f.st = 0 ∨ (f.st = 6 ∧ f.tag ≠ srcTag s.dev src far) →
          filt (t.dev.port n) src far = toTrain s.dev.dt.dt (srcTag s.dev src far)) ∧
        ((f.st = 6 ∨ f.st = 5) ∧ f.tag = srcTag s.dev src far →
          filt (t.dev.port n) src far = { f with st := 3, was := f.st, since := s.dev.dt.dt, w := weight s.dev n f }) ∧
        (f.st = 1 ∨ f.st = 2 ∨ f.st = 3 ∨ f.st = 4 ∨ f.st = 7 → filt (t.dev.port n) src far = f) ∧
        (∀ k, (t.dev.port k).link = (s.dev.port k).link)) ∧
    (srcValid s.dev src far = false → exec (.crosstalkSourceValid src far) s = .next s) ∧
    (srcValid s.dev src far = false →
      ∃ t, exec (.crosstalkSourceInvalid src far) s = .next t ∧
        (f.st = 4 ∨ f.st = 3 → justLeft s.dev f 2 = false →
          filt (t.dev.port n) src far = { f with st := 5, was := f.st, since := s.dev.dt.dt, w := weight s.dev n f }) ∧
        (f.st = 4 ∨ f.st = 3 → justLeft s.dev f 2 = true → filt (t.dev.port n) src far = toOut s.dev.dt.dt) ∧
        (f.st = 1 ∨ f.st = 2 ∨ f.st = 7 → filt (t.dev.port n) src far = toOut s.dev.dt.dt) ∧
        (f.st = 0 ∨ f.st = 5 ∨ f.st = 6 → filt (t.dev.port n) src far = f) ∧
        (∀ k, (t.dev.port k).link = (s.dev.port k).link)) ∧
    (srcValid s.dev src far = true → exec (.crosstalkSourceInvalid src far) s = .next s) ∧
    (∃ t, exec (.shroudTrainTimeout n src far) s = .next t ∧ t.dev = { s.dev.setPort n (t.dev.port n) with dt := t.dev.dt } ∧
      filt (t.dev.port n) src far = if f.st = 1 then { f with st := 7, was := 1, since := t.dev.dt.dt } else f) ∧
    (∃ t, exec (.weakRetryTimeout n src far) s = .next t ∧ t.dev = { s.dev.setPort n (t.dev.port n) with dt := t.dev.dt } ∧
      (f.st = 7 → filt (t.dev.port n) src far = toTrain t.dev.dt.dt (srcTag s.dev src far)) ∧
      (f.st ≠ 7 → t = s)) ∧
    (usValid s.dev src = false → dsValid s.dev src = false →
      ∃ t, exec (.rampComplete n src far) s = .next t ∧ t.dev = { s.dev.setPort n (t.dev.port n) with dt := t.dev.dt } ∧
      (f.st = 3 → filt (t.dev.port n) src far = { f with st := 4, was := 3, since := t.dev.dt.dt, w := fullW, a := f.c }) ∧
      (f.st = 5 → sameBundle s.dev n src = true → fld s.dev.sys.shrCfg 31 24 ≠ 0 →
        filt (t.dev.port n) src far = { f with st := 6, was := 5, since := t.dev.dt.dt, w := 0 }) ∧
      (f.st = 5 → sameBundle s.dev n src = false → filt (t.dev.port n) src far = toOut t.dev.dt.dt)) ∧
    (justLeft s.dev f 6 = false →
      ∃ t, exec (.keepTimeout n src far) s = .next t ∧ t.dev = { s.dev.setPort n (t.dev.port n) with dt := t.dev.dt } ∧
      filt (t.dev.port n) src far = if f.st = 6 then toOut t.dev.dt.dt else f) ∧
    ((s.dev.port n).shr.leaves = [l] → l.what = .portDown → (s.dev.port n).link.st = .up →
      ∃ t, exec (.leaveEnd n) s = .next t ∧ (t.dev.port n).link.st = .down ∧ (t.dev.port n).shr.leaves = []) ∧
    ((s.dev.port n).shr.leaves = [] → exec (.leaveEnd n) s = .next s)

/-! ### OAM, the planned downshift, Reef and the Attic -/

/-- R83, R127, R128, R129, R133, R134, R135, R487, R579: The exchanges with the link partner. An exchange without an answer goes out
three times more and then ends with TIMEOUT. Idleness asks for REEF1 by a write of the control window at a USEQ that is a
multiple of 4, and REEF2_T for REEF2; two uncorrectable refresh superframes, and the partner's wake tone, make the port train.
Step 3 of a planned downshift writes the window and places MODE_SWITCH. A periodic Attic record goes out from an UP port.
Readings that are the choice of the model: assumptions 64, 140, 169, 171, 174. -/
def Obligations.linkServices : Prop :=
  ∀ (s : State) (n : Fin 16) (tag : W8) (x : OamX) (h : W16) (o : Op) (m : LineMode) (rx : List RxClock), s.safe → s.dev.sys.mode = .run →
    bit s.dev.pwr.padPort n.val = false → (s.dev.port n).on = true →
    ((s.dev.port n).oam.live = [x] → x.isReg = true → x.tag = tag → x.sent ≠ 0 → x.tries < 3 →
      exec (.oamTimeout n tag) s = .next { s with dev := s.dev.modPort n fun p => { p with
        oam := { p.oam with live := [{ x with tries := x.tries + 1, sent := 0 }] } } }) ∧
    ((s.dev.port n).oam.live = [x] → x.isReg = true → x.tag = tag → x.sent ≠ 0 → 3 ≤ x.tries → x.op = some h →
      findOp s.dev h = some o → o.final = none →
      ∃ t, exec (.oamTimeout n tag) s = .next t ∧ (t.dev.port n).oam.live = [] ∧ endedWith t h = some 0x0010) ∧
    ((s.dev.port n).oam.live = [] → exec (.oamTimeout n tag) s = .next s) ∧
    (bit (s.dev.port n).cfg.pwrCfg 0 = true → (s.dev.port n).link.st = .up → (s.dev.port n).link.mode = .gl25 →
      reefPlan (s.dev.port n) = none →
      ∃ t, exec (.portIdleExpiry n) s = .next t ∧ (t.dev.port n).link.st = .up ∧
        (t.dev.port n).oam.live.getLast?.map (fun x => (x.type, x.addr, x.value)) =
          some (2, 0xFFFFFF04, reefWord 1 (placeUseq (s.dev.port n).train.useq 8)) ∧
        (t.dev.port n).oam.live.length = (s.dev.port n).oam.live.length + 1 ∧ t.dev.sys = s.dev.sys) ∧
    (bit (s.dev.port n).cfg.pwrCfg 0 = false → exec (.reef2TimerExpiry n) s = .next s) ∧
    (bit (s.dev.port n).cfg.pwrCfg 0 = false → (s.dev.port n).link.reefRetry = false → (s.dev.port n).link.st = .up →
      exec (.portIdleExpiry n) s = .next s) ∧
    ((s.dev.port n).link.reefRetry = false → (s.dev.port n).link.st = .reef1 → exec (.portIdleExpiry n) s = .next s) ∧
    (bit (s.dev.port n).cfg.pwrCfg 0 = true → fld (s.dev.port n).cfg.pwrCfg 15 4 ≠ 0 → (s.dev.port n).link.st = .reef1 →
      (s.dev.port n).link.mode = .gl25 → reefPlan (s.dev.port n) = none →
      ∃ t, exec (.reef2TimerExpiry n) s = .next t ∧ (t.dev.port n).link.st = .reef1 ∧
        (t.dev.port n).oam.live.getLast?.map (fun x => (x.type, x.addr, x.value)) =
          some (2, 0xFFFFFF04, reefWord 2 (placeUseq (s.dev.port n).train.useq 8))) ∧
    ((s.dev.port n).link.st = .reef1 → (s.dev.port n).link.mode = .gl25 → (s.dev.port n).line.refreshBad = 1 →
      (s.dev.port n).line.reefAt = none →
      (∃ t, exec (.refreshSuperframe n false rx) s = .next t ∧ (t.dev.port n).link.st = .training) ∧
      (exec (.refreshSuperframe n true rx) s = .next { s with
        dev := (s.dev.setPort n (windowPort s n rx)).modPort n fun p => { p with line := { p.line with refreshBad := 0 } } }) ∧
      ∃ t, exec (.wakeToneDetected n) s = .next t ∧ (t.dev.port n).link.st = .training) ∧
    ((s.dev.port n).link.st = .training → (s.dev.port n).train.toneOn = true → (s.dev.port n).link.fast = true →
      ∃ t, exec (.wakeToneEnd n) s = .next t ∧ (t.dev.port n).train.toneOn = false ∧ (t.dev.port n).train.start.isSome = true ∧
        (t.dev.port n).link.st = .training) ∧
    ((s.dev.port n).line.dsTarget = some m → m ≠ .t10g → (s.dev.port n).link.st = .up → 4 ≤ (s.dev.port n).line.dsSent →
      switchAsked (s.dev.port n) = false → s.dev.hal.cal = [] →
      ∃ t, exec (.glkSwitchWrite n) s = .next t ∧
        (t.dev.port n).oam.live.getLast?.map (fun x => (x.type, x.addr, x.value)) =
          some (2, 0xFFFFFF00, at_ 28 m.code ||| at_ 0 (t.dev.port n).line.dsUseq.toNat) ∧
        t.dev.hal.cal.map (fun e => (e.action, e.ports)) = [(0x07, portMask n)] ∧
        (t.dev.port n).line.dsTries = (s.dev.port n).line.dsTries + 1) ∧
    ((s.dev.port n).line.dsTarget = none → exec (.glkSwitchWrite n) s = .next s) ∧
    ((s.dev.port n).line.dsBlocked = false → exec (.downshiftReevaluate n) s = .next s) ∧
    ((s.dev.port n).line.dsBlocked = true →
      ∃ t, exec (.downshiftReevaluate n) s = .next t ∧ (t.dev.port n).line.dsBlocked = false ∧
        (t.dev.port n).link = (s.dev.port n).link) ∧
    (mayPlan (s.dev.port n) = true → plannedMode (s.dev.port n) = some m → (s.dev.port n).diag.fcastValid = true →
      ∃ t, exec (.forecastLeadReached n) s = .next t ∧ (t.dev.port n).line.dsTarget = some m ∧
        (t.dev.port n).link = (s.dev.port n).link) ∧
    ((s.dev.port n).diag.fcastValid = false → exec (.forecastLeadReached n) s = .next s) ∧
    ((s.dev.port n).link.st = .up → (s.dev.port n).attic.on = true → (s.dev.port n).pc.up = true →
      (s.dev.port n).attic.dmaHalt = false →
      ∃ t, exec (.atticPeriodic n) s = .next t ∧ (t.dev.port n).attic.seq = (s.dev.port n).attic.seq + 1 ∧
        (sent s t).any (isWrite .pf0 ((s.dev.port n).attic.addr + BitVec.ofNat 64 ((s.dev.port n).attic.idx * 32)) 32) = true ∧
        (t.dev.port n).link = (s.dev.port n).link) ∧
    ((s.dev.port n).attic.on = false → exec (.atticPeriodic n) s = .next s)

/-! ### Standard modes -/

/-- R157, R216, R219, R220, R221, R226, R228, R229, R230: A port in a standard mode. A resolved mode that it advertised starts PMA
training with its role; link_status = OK brings it UP, FAIL makes it train again at the same mode, and a failed training ends
with LAST_FAIL 8, or 10 after a link. TC10 puts it in REEF2 by agreement, and its pulse wakes it. LPI shows its state; a frame
leaves REEF1. An OAM message fills the receive registers. Readings that are the choice of the model: assumptions 6, 146, 176. -/
def Obligations.standardModes : Prop :=
  ∀ (s : State) (n : Fin 16) (m : LineMode) (master eee oam : Bool) (rx : List RxClock) (errSq symbols : Nat) (msg : W64), s.safe →
    s.dev.sys.mode = .run → bit s.dev.pwr.padPort n.val = false → (s.dev.port n).on = true →
    ((s.dev.port n).link.st = .training → (s.dev.port n).train.anRun = true → m.std = true →
      m.inMap (s.dev.port n).std.advert.toNat = true →
      ∃ t, exec (.autonegResolved n m master eee oam) s = .next t ∧ (t.dev.port n).link.mode = m ∧
        (t.dev.port n).train.pmaRun = true ∧ (t.dev.port n).link.attemptTimer = false ∧ (t.dev.port n).link.st = .training ∧
        (t.dev.port n).std.master = (if fld (s.dev.port n).link.stdNow 31 30 = 0 then true
          else if fld (s.dev.port n).link.stdNow 31 30 = 1 then false else master)) ∧
    (m.inMap (s.dev.port n).std.advert.toNat = false → exec (.autonegResolved n m master eee oam) s = .next s) ∧
    ((s.dev.port n).link.st = .training → (s.dev.port n).train.pmaRun = true → (s.dev.port n).link.mode = .t2g5 →
      s.dev.flt.port[n.val].raised = 0 →
      ∃ t, exec (.linkStatusOk n rx errSq symbols) s = .next t ∧ (t.dev.port n).link.st = .up ∧
        (t.dev.port n).link.marginCur = s16 (marginOf .t2g5 errSq symbols 30) ∧
        (t.dev.port n).rx.live = { (rxRun s.dev n rx).1.rx.live with
          dfe := (rxRun s.dev n rx).1.rx.live.dfe.map fun x => max (-4096) (min 4096 x) } ∧
        (t.dev.port n).link.fails = 0 ∧ (t.dev.port n).rtx.wAct = 0) ∧
    ((s.dev.port n).train.pmaRun = false → exec (.linkStatusOk n rx errSq symbols) s = .next s) ∧
    ((s.dev.port n).link.st = .up → (s.dev.port n).link.mode.std = true → s.dev.flt.port[n.val].raised = 0 →
      ∃ t, exec (.linkStatusFail n) s = .next t ∧ (t.dev.port n).link.st = .training ∧ (t.dev.port n).train.pmaRun = true ∧
        (t.dev.port n).train.again = true ∧ (t.dev.port n).link.mode = (s.dev.port n).link.mode ∧
        (t.dev.port n).std.master = (s.dev.port n).std.master ∧
        ((s.dev.port n).std.linkFails ≠ 255 → (t.dev.port n).std.linkFails = (s.dev.port n).std.linkFails + 1)) ∧
    ((s.dev.port n).link.mode.std = false → exec (.linkStatusFail n) s = .next s) ∧
    ((s.dev.port n).link.st = .training → (s.dev.port n).train.pmaRun = true →
      ∃ t, exec (.standardTrainingFailure n) s = .next t ∧ (t.dev.port n).link.st = .down ∧
        (t.dev.port n).link.lastFail = (if (s.dev.port n).train.again then 10 else 8) ∧ (t.dev.port n).link.backoff = true) ∧
    ((s.dev.port n).link.st = .up → (s.dev.port n).link.mode.std = true →
      (bit (s.dev.port n).link.stdNow 22 = true → bit (s.dev.port n).link.stdNow 21 = true →
        (s.dev.dt.running = true → (s.dev.port n).link.wakeTick ≠ some s.dev.dt.dt) →
        ∃ t, exec (.tc10SleepRequest n false) s = .next t ∧ (t.dev.port n).link.st = .reef2 ∧
          (t.dev.port n).std.tc10Sleep = true ∧ (sent s t).contains (.tc10Answer n true) = true) ∧
      ((s.dev.port n).std.handshake = false →
        exec (.tc10SleepRequest n true) s = .next { s with dev := { s.dev with out := .tc10Answer n false :: s.dev.out } }) ∧
      ((s.dev.port n).std.handshake = true →
        ((s.dev.dt.running = true → (s.dev.port n).link.wakeTick ≠ some s.dev.dt.dt) →
          ∃ t, exec (.tc10SleepAnswer n true) s = .next t ∧ (t.dev.port n).link.st = .reef2 ∧
          (t.dev.port n).std.tc10Sleep = true) ∧
        exec (.tc10SleepAnswer n false) s = .next { s with
          dev := s.dev.modPort n fun p => { p with std := { p.std with handshake := false } } } ∧
        exec (.tc10SleepTimeout n) s = exec (.tc10SleepAnswer n false) s)) ∧
    ((s.dev.port n).link.st = .reef1 → (s.dev.port n).std.handshake = true →
      exec (.tc10SleepTimeout n) s = .next { s with
        dev := s.dev.modPort n fun p => { p with std := { p.std with handshake := false }, link := { p.link with reefRetry := true } } } ∧
      exec (.tc10SleepAnswer n false) s = exec (.tc10SleepTimeout n) s) ∧
    ((s.dev.port n).std.handshake = false → exec (.tc10SleepAnswer n true) s = .next s ∧ exec (.tc10SleepTimeout n) s = .next s) ∧
    ((s.dev.port n).link.st = .reef2 → (s.dev.port n).link.mode.std = true →
      ∃ t, exec (.tc10WakePulse n) s = .next t ∧ (t.dev.port n).link.st = .training ∧ (t.dev.port n).std.wakeSrc = 1) ∧
    ((s.dev.port n).link.st = .reef1 → (s.dev.port n).link.mode.std = true → (s.dev.port n).line.reefAt = none →
      s.dev.flt.port[n.val].raised = 0 →
      ∃ t, exec (.stdFrameWake n) s = .next t ∧ (t.dev.port n).link.st = .up ∧
        (t.dev.port n).link.mode = (s.dev.port n).link.mode) ∧
    ((s.dev.port n).link.st = .up → (s.dev.port n).std.handshake = false → exec (.stdFrameWake n) s = .next s) ∧
    ((s.dev.port n).link.st = .up → (s.dev.port n).std.handshake = true → ∃ t, exec (.stdFrameWake n) s = .next t ∧
      (t.dev.port n).link = (s.dev.port n).link ∧ (t.dev.port n).std.handshake = false) ∧
    ((s.dev.port n).link.st = .up → (s.dev.port n).link.mode = .t10g → (s.dev.port n).std.eee = true →
      exec (.lpiReceived n false oam) s = .next { s with dev := { s.dev.modPort n fun p =>
        { p with std := { p.std with lpiTx := oam } } with out := .quietRefresh n oam :: s.dev.out } } ∧
      ∃ t, exec (.lpiReceived n true oam) s = .next t ∧ (t.dev.port n).std.lpiRx = oam ∧
        (oam = true → (t.dev.port n).rx.rich = .quiet) ∧
        (laneTx s.dev (s.dev.port n).lane = .data → (s.dev.port n).up.pauses = [] →
          Output.laneBlocks (txPin s.dev (s.dev.port n).lane).val [if oam then lpiBlock else idleBlock] ∈ sent s t)) ∧
    ((s.dev.port n).std.eee = false → exec (.lpiReceived n master oam) s = .next s) ∧
    ((s.dev.port n).link.st = .up → (s.dev.port n).link.mode.std = true → (s.dev.port n).std.oam = true →
      ∃ t, exec (.stdOamMessage n msg) s = .next t ∧ c45Value n (t.dev.port n) (c45Key 3 2314) = msg.setWidth 16 ∧
        c45Value n (t.dev.port n) (c45Key 3 2317) = (msg >>> 48).setWidth 16 ∧ (t.dev.port n).link = (s.dev.port n).link) ∧
    ((s.dev.port n).std.oam = false → exec (.stdOamMessage n msg) s = .next s)

/-! ### Halyard -/

/-- R284: The edges and the slews of device time. An edge of the chosen polarity is kept, the last four of them. 1.5 s without a
named edge clears LOCKED and counts, and DT and its trim stay. A slew ends where it has removed its error but for less than 40
ns, and completes its TIME_SET. Readings that are the choice of the model: assumptions 65, 67, 178, 179. -/
def Obligations.deviceTime : Prop :=
  ∀ (s : State) (rising : Bool) (o : Op) (mode : W8) (value value' : W64), s.safe → powered s.dev = true →
    (s.dev.dt.running = true → rising = !bit s.dev.dt.cfg 2 →
      ∃ t, exec (.ppsEdge rising) s = .next t ∧ t.dev.dt.caps.head? = some s.dev.dt.dt ∧
        (s.dev.dt.caps.length = 4 → t.dev.dt.caps.tail = s.dev.dt.caps.take 3) ∧
        t.dev = { s.dev with dt := { s.dev.dt with
          caps := t.dev.dt.caps, capCount := s.dev.dt.capCount + 1, lastPps := s.dev.stamp } }) ∧
    (rising = bit s.dev.dt.cfg 2 → exec (.ppsEdge rising) s = .next s) ∧
    (s.dev.dt.running = true → srcAct s.dev = 1 →
      ∃ t, exec .ppsMiss s = .next t ∧ t.dev.dt.locked = false ∧ t.dev.dt.trim = s.dev.dt.trim ∧ t.dev.dt.adj = s.dev.dt.adj ∧
        t.dev.dt.dt = s.dev.dt.dt ∧ t.dev.dt.epoch = s.dev.dt.epoch ∧
        (s.dev.dt.ppsMiss ≠ 255 → t.dev.dt.ppsMiss = s.dev.dt.ppsMiss + 1) ∧
        (s.dev.dt.locked = false → t.dev = { s.dev with dt := t.dev.dt })) ∧
    (srcAct s.dev ≠ 1 → exec .ppsMiss s = .next s) ∧
    (s.dev.dt.slewOp = some o.handle → findOp s.dev o.handle = some o → o.final = none → o.cmd = .timeSet mode value value' →
      ∃ t, exec .slewEnd s = .next t ∧
        t.dev.dt = { ticks s.dev.dt (!lpllRuns s.dev.clk) (slewTicks s.dev.dt) with slew := 0, adj := s.dev.dt.trim, slewOp := none } ∧
        (s.dev.dt.slew.natAbs < 655360 * 1000000000 → 0 ≤ s.dev.dt.rest → s.dev.dt.rest < 1000000000 →
          t.dev.dt.dt = s.dev.dt.dt) ∧
        endedWith t o.handle = some 0 ∧ t.dev.raster = s.dev.raster ∧ t.dev.ports = s.dev.ports ∧ t.dev.flt = s.dev.flt) ∧
    (s.dev.dt.slew = 0 → s.dev.dt.slewOp = none → exec .slewEnd s = .next s)

/-- R289, R290, R291, R292, R293, R294, R297, R299, R305: The master raster. Under FSYNC_IN an edge within half a frame of the one
before is only counted; one within a line of its prediction is followed, and locks a raster in holdover; one further off
re-anchors the raster, counts in STEPS, and sets every LOCKED port raster steering. 1.5 frames without an edge is HOLDOVER,
HOLD_FRAMES of them UNLOCKED. A raster that waits takes over, and its command completes. FSYNC_OUT goes high at a frame start,
and low when the pulse of OUT_WIDTH ends. A port raster. Two frames without an accepted mark end it, and end its fault. A
raster-lock retry sends SET_FRAME again. The received blanking of a LOCKED port raster opens FIRST lines and DELAY after a frame
start, and there an entry of budget 0 for that port is due. Readings that are the choice of the model: assumptions 65, 103, 148,
180. -/
def Obligations.rasters : Prop :=
  (∀ (s : State) (rising : Bool) (r : RasterParams) (o : Op) (n : Fin 16), s.safe → s.dev.sys.mode = .run →
       (s.dev.dt.running = true → rising = !bit s.dev.hal.fsyncCfg 13 → s.dev.raster.next = none → effLock s.dev = 1 →
         s.dev.raster.set = true →
         ((∃ x ∈ s.dev.raster.lastEdge, 2 * (((s.dev.dt.dt.toNat : Int) + s.dev.hal.fsyncOfs.toInt) * 65536 - x) <
             s.dev.raster.frameLen) →
           ∃ t, exec (.fsyncEdge rising) s = .next t ∧ t.dev.raster = { s.dev.raster with edgeBad := satInc s.dev.raster.edgeBad } ∧
             t.dev.ports = s.dev.ports ∧ t.dev.hal = s.dev.hal) ∧
         (s.dev.raster.lastEdge = none → s.dev.raster.st = .holdover →
           ((((s.dev.dt.dt.toNat : Int) + s.dev.hal.fsyncOfs.toInt) * 65536 - s.dev.raster.frameStart
               (((s.dev.dt.dt.toNat : Int) + s.dev.hal.fsyncOfs.toInt) * 65536) (nearestFrame s.dev.raster (((s.dev.dt.dt.toNat : Int) + s.dev.hal.fsyncOfs.toInt) * 65536))).natAbs ≤
               s.dev.raster.lp.toNat →
             ∃ t, exec (.fsyncEdge rising) s = .next t ∧ t.dev.raster.st = .locked ∧ t.dev.raster.steps = s.dev.raster.steps ∧
               t.dev.raster.lp.toNat ≤ s.dev.raster.lpNom.toNat + s.dev.raster.lpNom.toNat / 5000 ∧
               s.dev.raster.lpNom.toNat ≤ t.dev.raster.lp.toNat + s.dev.raster.lpNom.toNat / 5000) ∧
           (s.dev.raster.lp.toNat < (((s.dev.dt.dt.toNat : Int) + s.dev.hal.fsyncOfs.toInt) * 65536 - s.dev.raster.frameStart
               (((s.dev.dt.dt.toNat : Int) + s.dev.hal.fsyncOfs.toInt) * 65536) (nearestFrame s.dev.raster (((s.dev.dt.dt.toNat : Int) + s.dev.hal.fsyncOfs.toInt) * 65536))).natAbs →
             s.dev.hal.cal = [] →
             ∃ t, exec (.fsyncEdge rising) s = .next t ∧ t.dev.raster.st = .holdover ∧
               t.dev.raster.anchor = ((s.dev.dt.dt.toNat : Int) + s.dev.hal.fsyncOfs.toInt) * 65536 ∧
               t.dev.raster.frame0 = nearestFrame s.dev.raster t.dev.raster.anchor ∧
               t.dev.raster.steps = satInc s.dev.raster.steps ∧ (t.dev.port n).raster.st ≠ .locked ∧
               ((s.dev.port n).raster.st ≠ .locked → t.dev.port n = s.dev.port n)))) ∧
       (rising = bit s.dev.hal.fsyncCfg 13 → exec (.fsyncEdge rising) s = .next s) ∧
       (s.dev.raster.st = .locked → effLock s.dev ≠ 0 →
         ∃ t, exec .rasterEdgeTimeout s = .next t ∧ t.dev.raster = { s.dev.raster with st := .holdover } ∧
           t.dev.ports = s.dev.ports ∧ ((s.dev.fn .pf0).ev.st = .run → ringFull (s.dev.fn .pf0).ev.cfg (s.dev.fn .pf0).ev.prod
             (s.dev.fn .pf0).ev.cons = false → (s.dev.fn .pf0).ev.lost = 0 → s.dev.sys.mgrUp = true →
             (sent s t).any (isEvent .pf0 0x0003 0) = true)) ∧
       (s.dev.raster.st ≠ .locked → exec .rasterEdgeTimeout s = .next s) ∧
       (s.dev.raster.st = .holdover → effLock s.dev = 1 → s.dev.raster.set = true →
         ∃ t, exec .rasterHoldoverExpiry s = .next t ∧ t.dev.raster = { s.dev.raster with st := .unlocked } ∧
           isLive t.dev 0x030 = true) ∧
       (s.dev.raster.st ≠ .holdover → exec .rasterHoldoverExpiry s = .next s) ∧
       (s.dev.raster.next = some (r, some o.handle) → r.lockSrc ≠ 1 → findOp s.dev o.handle = some o → o.final = none →
         s.dev.hal.cal = [] → s.dev.raster.avail = false → s.dev.dt.coarse = false → r.lines ≠ 0 → r.lp ≠ 0 →
         s.dev.dt.dt.toNat < 2 ^ 62 → r.anchor.toNat < 2 ^ 62 →
         ∃ t, exec .rasterTakeover s = .next t ∧ t.dev.raster.next = none ∧ t.dev.raster.lp = r.lp ∧ t.dev.raster.lines = r.lines ∧
           t.dev.raster.first = r.first ∧ t.dev.raster.last = r.last ∧ t.dev.raster.frame0 = r.frame0 ∧
           t.dev.raster.anchor = (r.anchor.toNat : Int) * 65536 ∧ endedWith t o.handle = some 0 ∧
           s.dev.dt.dt.toNat ≤ t.dev.dt.dt.toNat ∧
           ((t.dev.dt.dt.toNat : Int) - r.anchor.toNat) * 65536 % ((r.lines.toNat * r.lp.toNat : Nat) : Int) ≤ 65536 * 65536 ∧
           (t.dev.port n).raster.st ≠ .locked) ∧
       (s.dev.raster.next = none → exec .rasterTakeover s = .next s) ∧
       (s.dev.raster.set = true → fld s.dev.hal.fsyncCfg 15 14 = 0 →
         ∃ t, exec .masterFrameStart s = .next t ∧ t.dev.pins.fsyncOut = true ∧ t.dev.raster = s.dev.raster ∧
           t.dev.ports = s.dev.ports ∧ t.dev.dt.trim = s.dev.dt.trim ∧ t.dev.hal.fsyncAt = t.dev.dt.dt ∧
           (s.dev.dt.running = true → s.dev.dt.dt < dtOf (s.dev.raster.frameStart s.dev.t16 ((s.dev.raster.posAt s.dev.t16).frame + 1)) →
             t.dev.dt.dt = dtOf (s.dev.raster.frameStart s.dev.t16 ((s.dev.raster.posAt s.dev.t16).frame + 1)))) ∧
       (fld s.dev.hal.fsyncCfg 15 14 ≠ 0 → exec .masterFrameStart s = .next s) ∧
       (∃ t, exec .fsyncOutPulseEnd s = .next t ∧ t.dev.pins.fsyncOut = false ∧
         (s.dev.hal.fsyncHigh = false → t.dev = s.dev) ∧
         (s.dev.hal.fsyncHigh = true →
           t.dev = { s.dev with hal := { s.dev.hal with fsyncHigh := false }, pins := t.dev.pins, dt := t.dev.dt } ∧
           (s.dev.dt.running = true → s.dev.dt.dt < s.dev.hal.fsyncAt + BitVec.ofNat 64 (outWidth s.dev) →
             t.dev.dt.dt = s.dev.hal.fsyncAt + BitVec.ofNat 64 (outWidth s.dev))))) ∧
  (∀ (s : State) (n : Fin 16) (e : CalEntry), s.safe → s.dev.sys.mode = .run →
       (isLive s.dev (srcPort n 7) = false → s.dev.raster.avail = true →
         ∃ t, exec (.portRasterTimeout n) s = .next t ∧ (t.dev.port n).raster.st = .none ∧
           (t.dev.port n).raster.retry = false ∧ t.dev.raster = s.dev.raster ∧ (t.dev.port n).cfg = (s.dev.port n).cfg ∧
           isLive t.dev (srcPort n 7) = false ∧ ∀ k, k ≠ n → t.dev.port k = s.dev.port k) ∧
       ((s.dev.port n).raster.retry = true → (s.dev.port n).raster.st = .steering → s.dev.raster.avail = true →
         ∃ t, exec (.rasterLockRetry n) s = .next t ∧ (t.dev.port n).raster.retry = false ∧ (t.dev.port n).raster.st = .steering ∧
           (t.dev.port n).raster.k = (s.dev.raster.posAt s.dev.t16).frame + 2 ∧ (t.dev.port n).raster.lpSent = s.dev.raster.lp ∧
           ((s.dev.port n).raster.sets ≠ 255 → (t.dev.port n).raster.sets = (s.dev.port n).raster.sets + 1) ∧
           ((t.dev.port n).oam.cmds.any fun c => c.code == 1) = true ∧ ((t.dev.port n).oam.cmds.any fun c => c.code == 3) = true ∧
           (t.dev.port n).link = (s.dev.port n).link) ∧
       ((s.dev.port n).raster.retry = false → exec (.rasterLockRetry n) s = .next s) ∧
       ((s.dev.port n).raster.st = .locked → s.dev.raster.set = true → (s.dev.port n).link.st = .up → s.dev.hal.cal = [e] →
         e.trig = 3 → e.action = 0x01 → bit e.ports n.val = true → bit e.done n.val = false → e.plan = [] →
         s.dev.dt.dt.toNat < 2 ^ 62 → s.dev.raster.anchor.natAbs < 2 ^ 78 → (s.dev.port n).raster.opened < 0 →
         ∃ t, exec (.blankingOpen n) s = .next t ∧ s.dev.dt.dt.toNat ≤ t.dev.dt.dt.toNat ∧
           t.dev.t16 ≤ (t.dev.port n).raster.opened + 65535 ∧
           ((t.dev.port n).raster.opened - s.dev.raster.anchor - (s.dev.raster.first.toNat * s.dev.raster.lp.toNat : Nat) -
             ((s.dev.port n).cfg.rasterDelay.toNat * 256 : Nat)) % (s.dev.raster.frameLen : Int) = 0 ∧
           (t.dev.hal.cal.any fun x => x.plan == [(n, tickOf (t.dev.port n).raster.opened, true)]) = true) ∧
       ((s.dev.port n).raster.st = .none → exec (.blankingOpen n) s = .next s))

/-! ### The calendar -/

/-- R302, R303, R308: An entry with a DT trigger that a SCHEDULE placed. It fires at its DT, or at once where that has passed; a
one-shot entry is then gone and its handle completes with the word that tells whether it took effect; a repeating one stands at
its next period, and its handle lives on. TIMESTAMP posts its event, TRIG_OUT raises FSYNC_OUT in its mode, REEF_EXIT makes a
Gletik port in REEF1 train, REEF_ENTER asks an UP port's camera and has no effect in the tick of a REEF_EXIT, and ADAPT_STEP
takes over what is held. Readings that are the choice of the model: assumptions 4, 86, 87, 101, 181. -/
def Obligations.scheduledEntries : Prop :=
  ∀ (s : State) (i : Fin 4096) (e : CalEntry) (o : Op) (n : Fin 16), s.safe → s.dev.sys.mode = .run →
    findEntry' s.dev i.val e.action = some e → e.trig = 0 → e.handle = o.handle → o.handle ≠ 0xFFFF →
    findOp s.dev o.handle = some o → isSchedule o.cmd = true → o.final = none → s.dev.dt.running = true →
    e.took = false →
    (e.action = 0x09 → e.ahead = true →
      exec (.timestamp i) s = .next { s with dev := modEntry s.dev i.val fun x => { x with ahead := false } }) ∧
    (firesAlone s.dev e = true →
    (e.action = 0x09 → e.rep = 0 →
      ∃ t, exec (.timestamp i) s = .next t ∧ t.dev.dt.dt = (if s.dev.dt.dt < e.time then e.time else s.dev.dt.dt) ∧ endedWith t o.handle = some 0 ∧
        (t.dev.hal.cal.any fun x => x.idx == i.val) = false ∧ t.dev.ports = s.dev.ports ∧ t.dev.raster = s.dev.raster ∧
        ((s.dev.fn e.fn).ev.st = .run → ringFull (s.dev.fn e.fn).ev.cfg (s.dev.fn e.fn).ev.prod (s.dev.fn e.fn).ev.cons = false →
          (sent s t).any (isEvent e.fn 0x0004 0) = true)) ∧
    (e.action = 0x09 → e.rep ≠ 0 → e.time.toNat < 2 ^ 62 → s.dev.dt.dt.toNat < 2 ^ 62 →
      ∃ t, exec (.timestamp i) s = .next t ∧ endedWith t o.handle = none ∧
        (t.dev.hal.cal.any fun x => x.idx == i.val && x.action == 0x09 && decide (t.dev.dt.dt < x.time) &&
          decide (x.time.toNat ≤ t.dev.dt.dt.toNat + 250 * e.rep.toNat) &&
          (x.time - e.time).toNat % (250 * e.rep.toNat) == 0) = true) ∧
    (e.action = 0x06 → e.rep = 0 → bit e.arg 31 = false →
      ∃ t, exec (.trigOut i) s = .next t ∧ t.dev.ports = s.dev.ports ∧ endedWith t o.handle = some 0 ∧
        (fld s.dev.hal.fsyncCfg 15 14 = 1 → s.dev.raster.set = true → t.dev.pins.fsyncOut = true ∧
          ((findOp t.dev o.handle).bind (·.final)).map (·.r0) = some 1) ∧
        (fld s.dev.hal.fsyncCfg 15 14 ≠ 1 → t.dev.pins.fsyncOut = s.dev.pins.fsyncOut ∧
          ((findOp t.dev o.handle).bind (·.final)).map (·.r0) = some 0)) ∧
    (e.action = 0x05 → e.rep = 0 → e.ports = portMask n → (s.dev.port n).link.st = .reef1 → (s.dev.port n).link.mode = .gl12 →
      bit s.dev.pwr.padPort n.val = false → (s.dev.port n).line.reefAt = none →
      ∃ t, exec (.reefExit i) s = .next t ∧ (t.dev.port n).link.st = .training ∧
        (t.dev.port n).link.exitTick = some t.dev.dt.dt ∧ ((findOp t.dev o.handle).bind (·.final)).map (·.r0) = some 1) ∧
    (e.action = 0x04 → e.rep = 0 → e.ports = portMask n →
      ((s.dev.port n).link.exitTick = some (if s.dev.dt.dt < e.time then e.time else s.dev.dt.dt) →
        ∃ t, exec (.reefEnter i) s = .next t ∧ t.dev.ports = s.dev.ports ∧
          ((findOp t.dev o.handle).bind (·.final)).map (·.r0) = some 0) ∧
      ((s.dev.port n).link.exitTick = none → fld e.arg 1 0 = 1 → (s.dev.port n).link.st = .up →
        (s.dev.port n).link.mode = .gl12 → reefPlan (s.dev.port n) = none →
        ∃ t, exec (.reefEnter i) s = .next t ∧ (t.dev.port n).link.st = .up ∧
          (t.dev.port n).oam.live.getLast?.map (fun x => (x.type, x.addr, x.value)) =
            some (2, glkReefAddr, reefWord 1 (placeUseq (s.dev.port n).train.useq 8)) ∧
          ((findOp t.dev o.handle).bind (·.final)).map (·.r0) = some 1)) ∧
    (e.action = 0x01 → e.rep = 0 → e.ports = portMask n →
      ((s.dev.port n).link.st = .up → (s.dev.port n).rx.held = true →
        ∃ t, exec (.adaptStep i) s = .next t ∧ (t.dev.port n).rx.held = false ∧
          (t.dev.port n).rx.live.ffe = (s.dev.port n).rx.shadow.ffe ∧ (t.dev.port n).rx.live.dfe = (s.dev.port n).rx.shadow.dfe ∧
          (t.dev.port n).rx.live.ec = (s.dev.port n).rx.live.ec ∧ (t.dev.port n).link = (s.dev.port n).link ∧
          ∀ k, k ≠ n → t.dev.port k = s.dev.port k) ∧
      ((s.dev.port n).link.st ≠ .up →
        ∃ t, exec (.adaptStep i) s = .next t ∧ t.dev.ports = s.dev.ports ∧
          ((findOp t.dev o.handle).bind (·.final)).map (·.r0) = some 0)))

/-- R26, R76, R126, R131, R132, R302, R303, R304, R307, R554, R559, R582: Entries of the device, and what a named operation waits
for. A calibration step moves its trim by one; at a port that is not UP it and a test slice fire at once, and the next slice is
placed; a row that fails in its slice raises SELFTEST and takes a soft repair where a spare is free; where an UP port has no
raster the step fires after WAIT_MAX and counts UNBLANKED. A planned switch takes its port into an abbreviated phase 6 at the
new mode. CAPTURE_START starts its capture. A trigger command leaves TRG_LEAD ahead, once. A row that names no entry does
nothing. Readings that are the choice of the model: assumptions 88, 100, 175, 180. -/
def Obligations.deviceEntries : Prop :=
  ∀ (s : State) (i : Fin 4096) (e : CalEntry) (o : Op) (n : Fin 16) (m : LineMode) (row : Option (BitVec 7))
    (r : BitVec 7), s.safe →
    s.dev.sys.mode = .run →
    (findEntry' s.dev i.val e.action = some e → e.rep = 0 → e.handle = 0xFFFF → e.ports = portMask n → e.done = 0 →
      firesAlone s.dev e = true →
      (e.action = 0x02 → e.trig = 3 → (s.dev.port n).pc.up = true → (s.dev.port n).diag.calTargets = [] →
        fld e.arg 23 16 < 50 → (s.dev.port n).diag.trims.length = 52 →
        trimOf (s.dev.port n).diag.trims (fld e.arg 23 16) = BitVec.ofNat 8 (fld e.arg 7 0) + 1 →
        ((s.dev.port n).link.st ≠ .up →
          ∃ t, exec (.calStep i) s = .next t ∧
            trimOf (t.dev.port n).diag.trims (fld e.arg 23 16) = BitVec.ofNat 8 (fld e.arg 7 0) ∧
            (t.dev.port n).diag.calSteps = (s.dev.port n).diag.calSteps + 1 ∧ (t.dev.hal.cal.any fun x => x.idx == i.val) = false ∧
            t.dev.hal.unblanked = s.dev.hal.unblanked ∧ (t.dev.port n).link = (s.dev.port n).link) ∧
        ((s.dev.port n).link.st = .up → (s.dev.port n).raster.st = .none → s.dev.dt.running = true →
          ∃ t, exec (.calWaitExpiry i) s = .next t ∧ e.fallback + BitVec.ofNat 64 (waitMax s.dev) ≤ t.dev.dt.dt ∧
            trimOf (t.dev.port n).diag.trims (fld e.arg 23 16) = BitVec.ofNat 8 (fld e.arg 7 0) ∧
            t.dev.hal.unblanked = satInc s.dev.hal.unblanked)) ∧
      (e.action = 0x03 → e.trig = 3 → (s.dev.port n).pc.up = true → (s.dev.port n).link.st = .isolated →
        (s.dev.port n).bist.passRun = true → (s.dev.port n).bist.op = none → (s.dev.port n).bist.slice = 4 →
        ∃ t, exec (.bistSlice i none) s = .next t ∧ (t.dev.port n).bist.slice = 5 ∧ (t.dev.port n).bist.passRun = true ∧
          t.dev.mem = s.dev.mem ∧
          (t.dev.hal.cal.any fun x => x.action == 0x03 && x.ports == portMask n && x.arg == 0x0001_0020) = true) ∧
      (e.action = 0x03 → e.trig = 3 → (s.dev.port n).pc.up = true → (s.dev.port n).link.st = .isolated → e.arg = 0x0001_0000 →
        r.toNat < 32 → (s.dev.memSt (portMem n 0)).subst = [] → (s.dev.memSt (portMem n 0)).repaired = [] →
        s.dev.flt.port[n.val].raised = 0 → isLive s.dev (srcPort n 15) = false →
        ∃ t, exec (.bistSlice i (some r)) s = .next t ∧ (t.dev.memSt (portMem n 0)).subst = [(1, r.toNat)] ∧
          isRaised t.dev (srcPort n 15) = true ∧ (t.dev.port n).bist.failMem = 0 ∧ (t.dev.port n).bist.failArray = 1 ∧
          (t.dev.port n).link = (s.dev.port n).link) ∧
      (e.action = 0x07 → e.trig = 0 → (s.dev.port n).link.st = .up → (s.dev.port n).raster.st = .none →
        e.arg = at_ 0 m.code → (s.dev.port n).line.dsEnd = none →
        (m.gletik = true →
          ∃ t, exec (.modeSwitch i) s = .next t ∧ (t.dev.port n).link.st = .training ∧ (t.dev.port n).link.mode = m ∧
            (t.dev.port n).link.phase = 6 ∧ (t.dev.port n).train.abbrev_ = true ∧
            t.dev.hal.unblanked = satInc s.dev.hal.unblanked ∧ (t.dev.port n).line.seedDs = (s.dev.port n).line.dsSeedDs ∧
            (t.dev.port n).line.taps = (s.dev.port n).line.dsTaps) ∧
        (m = .t10g →
          ∃ t, exec (.modeSwitch i) s = .next t ∧ (t.dev.port n).link.st = .training ∧ (t.dev.port n).link.phase = 3 ∧
            (t.dev.port n).link.mode = (s.dev.port n).link.mode ∧ (t.dev.port n).train.dropStd = 8)) ∧
      (e.action = 0x07 → e.trig = 0 → (s.dev.port n).link.st = .reef1 →
        ∃ t, exec (.modeSwitch i) s = .next t ∧ t.dev.ports = s.dev.ports)) ∧
    (findEntry' s.dev i.val 0x08 = some e → e.trig = 0 → e.rep = 0 → e.capId = o.handle → findOp s.dev o.handle = some o →
      firesAlone s.dev e = true → captureWaits s.dev o.handle = some n → (s.dev.port n).link.mode.std = false → e.waiting = false → e.handle ≠ o.handle →
      ((s.dev.port n).pc.up = true →
        ∃ t, exec (.captureStart i) s = .next t ∧ openWith t o.handle o.cmd = true ∧ captureWaits t.dev o.handle = none ∧
          t.dev.ports = s.dev.ports) ∧
      ((s.dev.port n).pc.up = false →
        ∃ t, exec (.captureStart i) s = .next t ∧ captureWaits t.dev o.handle = some n ∧
          (t.dev.hal.cal.any fun x => x.idx == i.val && x.waiting) = true)) ∧
    (findEntry' s.dev i.val 0x06 = some e → e.trig = 0 → bit e.arg 31 = true → e.ports = portMask n →
      (e.sent = 0 → (s.dev.port n).link.st = .up → followRole s.dev = false → s.dev.dt.dt < e.time →
        BitVec.ofNat 64 (trgLead s.dev) < e.time →
        ∃ t, exec (.triggerCommandSend i) s = .next t ∧ t.dev.dt.dt < e.time ∧
          ((t.dev.port n).oam.cmds.any fun c => c.code == 8 && c.id == BitVec.ofNat 8 (fld e.arg 23 16) &&
            c.data == BitVec.ofNat 112 (fld e.arg 15 0 * 2 ^ 64 + e.time.toNat)) = true ∧
          (t.dev.hal.cal.any fun x => x.idx == i.val && bit x.sent n.val) = true ∧ (t.dev.port n).link = (s.dev.port n).link) ∧
      (e.sent ≠ 0 → exec (.triggerCommandSend i) s = .next s)) ∧
    ((s.dev.hal.cal.any fun x => x.idx == i.val) = false →
      exec (.timestamp i) s = .next s ∧ exec (.trigOut i) s = .next s ∧ exec (.reefEnter i) s = .next s ∧
      exec (.reefExit i) s = .next s ∧ exec (.adaptStep i) s = .next s ∧ exec (.calStep i) s = .next s ∧
      exec (.bistSlice i row) s = .next s ∧ exec (.modeSwitch i) s = .next s ∧ exec (.captureStart i) s = .next s ∧
      exec (.calWaitExpiry i) s = .next s ∧ exec (.triggerCommandSend i) s = .next s)

/-! ### Calibration, diagnostics, ageing and the planner -/

/-- R582, R583, R585: Calibration runs. A temperature further than CAL_DT from that of the last run's measurement starts a run where
AUTO_EN is set. A run whose measurement finds a bad reference leaves every trim unchanged and ends, and a CAL_RUN that contains
it ends with TEST_FAIL; one that finds no trim off its target completes, counts and takes over the planned amplitude offset;
another one places the step of its lowest trim, one code nearer to the target, which for the amplitude trim is offset by the
plan. -/
def Obligations.calibrationRuns : Prop :=
  ∀ (s : State) (n : Fin 16) (c : W8) (o : Op) (codes : List W8) (vref rext : Int), s.safe → powered s.dev = true →
    (∃ t, exec (.calTempSample n c) s = .next t ∧ (t.dev.port n).diag.tempNow = c ∧
      (t.dev.port n).diag.trims = (s.dev.port n).diag.trims ∧ (t.dev.port n).diag.tempLast = (s.dev.port n).diag.tempLast ∧
      ((s.dev.port n).diag.calRunning = true → (t.dev.port n).diag.calTargets = (s.dev.port n).diag.calTargets) ∧
      (bit s.dev.age.calCfg 1 = false → (t.dev.port n).diag.calRunning = (s.dev.port n).diag.calRunning) ∧
      (bit s.dev.age.calCfg 1 = true → 2 ≤ fld s.dev.age.calCfg 7 3 → fld s.dev.age.calCfg 7 3 ≤ 30 →
        (t.dev.port n).diag.calRunning = ((s.dev.port n).diag.calRunning ||
          decide (fld s.dev.age.calCfg 7 3 < (c.toInt - (s.dev.port n).diag.tempLast.toInt).natAbs))) ∧
      t.dev.flt = s.dev.flt ∧ ∀ k, k ≠ n → t.dev.port k = s.dev.port k) ∧
    (codes.length = 50 → (s.dev.port n).diag.calRunning = false → exec (.calRunEnd n vref rext codes) s = .next s) ∧
    (codes.length = 50 → (s.dev.port n).diag.calRunning = true → nextStep (s.dev.port n).diag = none →
      s.dev.host.ops = [o] → o.cmd = .calRun (portMask n) → o.final = none → o.started = true → o.fails = 0 → o.fails1 = 0 →
      (30000 < vref.natAbs ∨ 150000 < rext.natAbs →
        ∃ t, exec (.calRunEnd n vref rext codes) s = .next t ∧ (t.dev.port n).diag.trims = (s.dev.port n).diag.trims ∧
          (t.dev.port n).diag.calRunning = false ∧ t.dev.age.vrefBad = decide (30000 < vref.natAbs) ∧
          t.dev.age.rextBad = decide (150000 < rext.natAbs) ∧
          endedWith t o.handle = some 0x001E ∧
          ((findOp t.dev o.handle).bind (·.final)).map (·.r1) = some (at_ 0 (b2n t.dev.age.vrefBad) ||| at_ 1 (b2n t.dev.age.rextBad)) ∧
          ((s.dev.port n).diag.calCount ≠ 0xFFFFFFFF → (t.dev.port n).diag.calCount = (s.dev.port n).diag.calCount + 1)) ∧
      (vref.natAbs ≤ 30000 → rext.natAbs ≤ 150000 → (s.dev.port n).diag.trims.take 50 = calTarget (s.dev.port n).diag codes →
        (s.dev.port n).diag.trims.length = 52 →
        ∃ t, exec (.calRunEnd n vref rext codes) s = .next t ∧ (t.dev.port n).diag.calRunning = false ∧
          (t.dev.port n).diag.trims = (s.dev.port n).diag.trims ∧ (t.dev.port n).diag.txOfs = (s.dev.port n).diag.txTarget ∧
          endedWith t o.handle = some 0 ∧
          ((findOp t.dev o.handle).bind (·.final)).map (·.r0) = some (BitVec.ofNat 32 (s.dev.port n).diag.calSteps) ∧
          ((s.dev.port n).diag.calCount ≠ 0xFFFFFFFF → (t.dev.port n).diag.calCount = (s.dev.port n).diag.calCount + 1)) ∧
      (vref.natAbs ≤ 30000 → rext.natAbs ≤ 150000 → (s.dev.port n).diag.trims.length = 52 →
        (s.dev.port n).diag.trims.take 50 = c :: (calTarget (s.dev.port n).diag codes).tail → codes.head? = some (c + 3) →
        c.toNat < 250 →
        ∃ t, exec (.calRunEnd n vref rext codes) s = .next t ∧ (t.dev.port n).diag.calRunning = true ∧
          (t.dev.port n).diag.trims = (s.dev.port n).diag.trims ∧ openWith t o.handle o.cmd = true ∧
          (t.dev.hal.cal.any fun e => e.action == 0x02 && e.trig == 3 && e.ports == portMask n && e.handle == 0xFFFF &&
            e.arg == (c + 1).setWidth 32) = true))

/-- R346, R571, R572, R574, R575, R577: Diagnostics of the cable. The reflectogram of an UP port shows its echo coefficients, and
the first one is its baseline. An hourly comparison counts a peak of 40 dB or less that has changed by CHG. The shield's
baseline is the median of 10 minutes; over as long a mean, the shield is lost SH_RISE over the baseline, and whole again 3 dB
below that. Reflectometry of an ISOLATED port ends with the nearest open or short, or the largest step, and reports
indeterminate where the line was noisy. Readings that are the choice of the model: assumptions 91, 92, 93, 94, 185, 186, 190. -/
def Obligations.cableDiagnostics : Prop :=
  ∀ (s : State) (n : Fin 16) (was : List W16) (b : Nat) (power r : Int) (l : List Int) (o : Op) (echoes : List TdrEcho)
      (energy trained : Nat), s.safe →
    powered s.dev = true → (s.dev.port n).pc.up = true →
    ((s.dev.port n).link.st = .up →
      ∃ t, exec (.reflectogramUpdate n) s = .next t ∧ (t.dev.port n).diag.reflect = reflectogram (s.dev.port n) ∧
        (t.dev.port n).diag.reflect.length = 480 ∧
        (t.dev.port n).diag.baseline = some ((s.dev.port n).diag.baseline.getD (reflectogram (s.dev.port n))) ∧
        t.dev = s.dev.setPort n (t.dev.port n)) ∧
    ((s.dev.port n).link.st ≠ .up → exec (.reflectogramUpdate n) s = .next s) ∧
    ((s.dev.port n).diag.baseline = some was → (s.dev.port n).link.st = .up → fld (s.dev.port n).cfg.diagCfg 7 4 = 3 →
      (peakBins (s.dev.port n).diag.reflect was = [b] →
        ∃ t, exec (.reflectCompareHourly n) s = .next t ∧ (t.dev.port n).diag.baseline = some was ∧
        (t.dev.port n).diag.reflect = (s.dev.port n).diag.reflect ∧ (t.dev.port n).link = (s.dev.port n).link ∧
        ((s.dev.port n).diag.peaksChg ≠ 255 → (t.dev.port n).diag.peaksChg = (s.dev.port n).diag.peaksChg +
          (if binAt (s.dev.port n).diag.reflect b + 48 ≤ binAt was b ∨
               binAt was b + 48 ≤ binAt (s.dev.port n).diag.reflect b then 1 else 0))) ∧
      (peakBins (s.dev.port n).diag.reflect was = [] → exec (.reflectCompareHourly n) s = .next s)) ∧
    ((s.dev.port n).diag.baseline = none → exec (.reflectCompareHourly n) s = .next s) ∧
    ((s.dev.port n).link.st = .up → bit (s.dev.port n).cfg.diagCfg 31 = false → bit (s.dev.port n).cfg.diagCfg 30 = true →
      fld (s.dev.port n).cfg.diagCfg 19 15 = 10 → (s.dev.port n).diag.shieldWin.take 599 = l → l.length = 599 →
      ((s.dev.port n).diag.shieldRef = some r → (s.dev.port n).diag.shieldFirst = none →
        ∃ t, exec (.shieldMeasure n power) s = .next t ∧ (t.dev.port n).diag.shieldRef = some r ∧
          (t.dev.port n).diag.shieldWin = power :: l ∧
          (t.dev.port n).diag.shield = (if 600 * (r + 100) ≤ power + l.foldl (· + ·) 0 then true
            else if power + l.foldl (· + ·) 0 ≤ 600 * (r + 70) then false else (s.dev.port n).diag.shield) ∧
          t.dev.flt = s.dev.flt ∧ (t.dev.port n).link = (s.dev.port n).link) ∧
      ((s.dev.port n).diag.shieldFirst = some l →
        ∃ t, exec (.shieldMeasure n power) s = .next t ∧ (t.dev.port n).diag.shieldFirst = none ∧
          (t.dev.port n).diag.shieldRef = some (medianOf (power :: l)))) ∧
    (bit (s.dev.port n).cfg.diagCfg 31 = true → exec (.shieldMeasure n power) s = .next s) ∧
    (s.dev.host.ops = [o] → o.cmd = .diagTdr (BitVec.ofNat 8 n.val) → o.final = none → o.started = true →
      (s.dev.port n).link.st = .isolated →
      (trained < energy * 100 → ∃ t, exec (.tdrComplete n echoes energy trained) s = .next t ∧ endedWith t o.handle = some 0 ∧
        (t.dev.port n).diag.tdr = [⟨4, 0, 0, 0⟩] ∧
        ((findOp t.dev o.handle).bind (·.final)).map (·.r0) = some 0x4000_0000) ∧
      (energy * 100 ≤ trained → ∃ t, exec (.tdrComplete n echoes energy trained) s = .next t ∧ endedWith t o.handle = some 0 ∧
        (t.dev.port n).diag.tdr.length ≤ 8 ∧ (t.dev.port n).link = (s.dev.port n).link ∧
        ((t.dev.port n).diag.tdr.all fun f => decide (50 ≤ f.cm.toNat) &&
          (echoes.filterMap (findingOf n (s.dev.port n).cfg)).contains f) = true ∧
        ((findOp t.dev o.handle).bind (·.final)).map (·.r0) =
          some (((chosenTdr (t.dev.port n).diag.tdr).map fun f => at_ 28 f.type.toNat ||| at_ 0 f.cm.toNat).getD 0)) ∧
      (∃ t, exec (.tdrComplete n [] 0 trained) s = .next t ∧ endedWith t o.handle = some 0 ∧ (t.dev.port n).diag.tdr = [] ∧
        ((findOp t.dev o.handle).bind (·.final)).map (·.r0) = some 0)) ∧
    (s.dev.host.ops = [] → exec (.tdrComplete n echoes energy trained) s = .next s)

/-- R586, R587, R588, R589, R590: Ageing and the planner. A measurement waits for F0; its plan is the factory voltage and a step of
5 mV for each STEP of the largest ageing, at most 0.86 V, and a higher one applies at once. Each hour the upstream losses are
taken over; with the planner off nothing else happens, and with it on the hour's point joins the fit, the forecast is the new
fit's, and the window that the bursts call for is proposed where it differs, once in a day. Readings that are the choice of the
model: assumptions 150, 187, 188. -/
def Obligations.ageingAndPlanner : Prop :=
  ∀ (s : State) (n : Fin 16) (cycles : List (Nat × Nat)) (b : PlanBurst) (at' : W64), s.safe → powered s.dev = true →
    (cycles.length = 24 → s.dev.avs.freq ≠ 0 → exec (.ageMeasurement cycles) s = .next s) ∧
    (cycles.length = 24 → s.dev.avs.freq = 0 → s.dev.bist.privRun = 0 →
      ∃ t, exec (.ageMeasurement cycles) s = .next t ∧
        t.dev.age.delta = (List.zip (List.range 24) cycles).map (fun x => deltaOf x.1 x.2.1 x.2.2) ∧ t.dev.ports = s.dev.ports ∧ t.dev.avs.freq = 0 ∧
        (bit s.dev.age.cfg 0 = false → t.dev.avs = s.dev.avs) ∧
        (bit s.dev.age.cfg 0 = true → fld s.dev.age.cfg 15 8 = 8 →
          (s.dev.avs.vset.toNat <
              min 172 (partVset.toNat + (deltaMax t.dev.age + 39) / 40) →
            t.dev.avs.vset = BitVec.ofNat 8 (min 172 (partVset.toNat + (deltaMax t.dev.age + 39) / 40)) ∧
            t.dev.age.lower = 0) ∧
          t.dev.age.ceiling = decide (172 ≤ partVset.toNat + (deltaMax t.dev.age + 39) / 40) ∧
          (min 172 (partVset.toNat + (deltaMax t.dev.age + 39) / 40) < s.dev.avs.vset.toNat → s.dev.age.lower < 6 →
            t.dev.avs.vset = s.dev.avs.vset ∧ t.dev.age.lower = s.dev.age.lower + 1) ∧
          (min 172 (partVset.toNat + (deltaMax t.dev.age + 39) / 40) < s.dev.avs.vset.toNat → s.dev.age.lower = 6 →
            t.dev.avs.vset = s.dev.avs.vset - 1 ∧ t.dev.age.lower = 0))) ∧
    (∃ t, exec (.plannerHourly n) s = .next t ∧
      (t.dev.port n).diag.upLoss = BitVec.ofNat 16 (min (s.dev.port n).diag.lossNow 65535) ∧ (t.dev.port n).diag.lossNow = 0 ∧
      (t.dev.port n).cfg = (s.dev.port n).cfg ∧ (t.dev.port n).link = (s.dev.port n).link ∧ t.dev.flt = s.dev.flt ∧
      (bit (s.dev.port n).cfg.planCfg 31 = false → t.dev = s.dev.setPort n (t.dev.port n) ∧
        (t.dev.port n).diag.ttc = (s.dev.port n).diag.ttc ∧ (t.dev.port n).diag.plan.points = (s.dev.port n).diag.plan.points ∧
        (t.dev.port n).line = (s.dev.port n).line) ∧
      (bit (s.dev.port n).cfg.planCfg 31 = true → (s.dev.port n).pc.up = true →
        (t.dev.port n).diag.plan.points = ((hourPoint s.dev.dt.dt (s.dev.port n).diag).toList ++
          (s.dev.port n).diag.plan.points).filter
            (fun x => decide ((s.dev.dt.dt - x.time).toNat ≤ hours (24 * fitDays (s.dev.port n).cfg))) ∧
        ((t.dev.port n).diag.fcastValid = true → 24 ≤ (t.dev.port n).diag.plan.points.length) ∧
        ((t.dev.port n).diag.plan.points ≠ [] → (t.dev.port n).diag.ttc =
          ttcOf (fitSums s.dev.dt.dt (t.dev.port n).diag.plan.points) (fitOf (fitSums s.dev.dt.dt (t.dev.port n).diag.plan.points))
            (hotOf (t.dev.port n).diag)) ∧
        ((t.dev.port n).diag.fcastValid = false → (t.dev.port n).line = (s.dev.port n).line))) ∧
    (bit (s.dev.port n).cfg.planCfg 31 = true → bit (s.dev.port n).cfg.planCfg 30 = true → (s.dev.port n).pc.up = true →
      (s.dev.port n).link.mode = .gl25 → (s.dev.port n).diag.plan.bursts = [b] → (s.dev.dt.dt - b.time).toNat ≤ hours 168 →
      cfgW (s.dev.port n).cfg < planWindow 4250 b.len →
      ((s.dev.port n).diag.plan.proposedAt.all fun x => decide (hours 24 ≤ (s.dev.dt.dt - x).toNat)) = true →
      (s.dev.fn .pf0).ev.st = .run → (s.dev.fn .pf0).ev.lost = 0 →
      ringFull (s.dev.fn .pf0).ev.cfg (s.dev.fn .pf0).ev.prod (s.dev.fn .pf0).ev.cons = false → s.dev.sys.mgrUp = true →
      ∃ t, exec (.plannerHourly n) s = .next t ∧ (sent s t).any (isEvent .pf0 0x0012 (scopePort n)) = true ∧
        (t.dev.port n).diag.plan.proposedAt = some s.dev.dt.dt) ∧
    ((s.dev.port n).diag.plan.proposedAt = some at' → (s.dev.dt.dt - at').toNat < hours 24 →
      ∃ t, exec (.plannerHourly n) s = .next t ∧ (sent s t).any (isEvent .pf0 0x0012 (scopePort n)) = false)

/-! ### Memory integrity and self-test -/

/-- R25, R27, R544, R545, R546, R547, R548, R550, R552, R553: Corrections. A corrected read counts, and enters or counts in the
tracker; at count 4 the word is written back and watched. An error at a watched word is a hard fault: its row takes a spare of
its own array, or the memory is lost where none is left. A clean visit frees a watched word, and a lap longer than LAP_MAX
counts. A substitution's copy ends in the repair map. Uncorrectable words. A word fetched is poisoned and counted once. A fetch
or load resets the port's controller, or restarts the manager; a reorder entry goes missing; an upstream block turns into an
errored one; a live coefficient goes back to its anchor, and a port whose anchor is lost trains again; a handle entry abandons
its operation. Live firmware is reloaded, and a failed check of it resets the processor. Readings that are the choice of the
model: assumptions 95, 96, 97. -/
def Obligations.protectedMemories : Prop :=
  (∀ (s : State) (x : Fin 132) (a ticks : Nat) (c : Nat) (f : ScrubFinding), s.safe → powered s.dev = true → a < memBytes x →
       ((s.dev.memSt x).subst = [(c, ticks)] →
         exec (.substitutionComplete x c ticks) s = .next { s with dev := s.dev.modMem x fun m =>
           { m with subst := [], repaired := m.repaired ++ [(c, ticks)] } }) ∧
       ((∃ t, exec (.correctedRead x a) s = .next t ∧
         ((s.dev.memSt x).corr ≠ 0xFFFFFFFF → (t.dev.memSt x).corr = (s.dev.memSt x).corr + 1) ∧
         ∀ y, y ≠ x → t.dev.memSt y = s.dev.memSt y) ∧
       (bit s.dev.bist.memCfg 1 = true →
         ((s.dev.memSt x).track = [] →
           ∃ t, exec (.correctedRead x a) s = .next t ∧ (t.dev.memSt x).track = [(memUnit x a, 1, false)] ∧ t.dev.flt = s.dev.flt) ∧
         ((s.dev.memSt x).track = [(memUnit x a, c, false)] →
           (∃ t, exec (.correctedRead x a) s = .next t ∧ (t.dev.memSt x).track = [(memUnit x a, c + 1, false)] ∧ t.dev.flt = s.dev.flt) ∧
           (4 ≤ c → ∃ t, exec (.trackerWriteBack x a) s = .next t ∧ (t.dev.memSt x).track = [(memUnit x a, c, true)] ∧
             t.dev = s.dev.setMem x (t.dev.memSt x)) ∧
           (c < 4 → exec (.trackerWriteBack x a) s = .next s)) ∧
         ((s.dev.memSt x).track = [(memUnit x a, c, true)] →
           ((s.dev.memSt x).subst = [] → (s.dev.memSt x).repaired = [] →
             ∃ t, exec (.correctedRead x a) s = .next t ∧ (t.dev.memSt x).subst = [(a / 65536, a % 65536 / 512)] ∧
               (t.dev.memSt x).track = [(memUnit x a, c, true)] ∧ ((s.dev.memSt x).hard ≠ 255 → (t.dev.memSt x).hard = (s.dev.memSt x).hard + 1) ∧
               (t.dev.memSt x).loss = (s.dev.memSt x).loss ∧
               ∃ u, exec (.substitutionComplete x (a / 65536) (a % 65536 / 512)) t = .next u ∧ (u.dev.memSt x).subst = [] ∧
                 (u.dev.memSt x).repaired = [(a / 65536, a % 65536 / 512)] ∧ u.dev.flt = t.dev.flt) ∧
           (spareFree (s.dev.memSt x) (a / 65536) = false → (s.dev.memSt x).subst = [] →
             ∃ t, exec (.correctedRead x a) s = .next t ∧ (t.dev.memSt x).loss = true ∧ (t.dev.memSt x).subst = [] ∧
               (isLive s.dev (lossSrc x) = false → isRaised t.dev (lossSrc x) = true)))) ∧
       (bit s.dev.bist.memCfg 0 = true →
         ((s.dev.memSt x).track = [(memUnit x a, c, true)] →
           ∃ t, exec (.scrubVisit x a .clean) s = .next t ∧ (t.dev.memSt x).track = [] ∧ t.dev.flt = s.dev.flt) ∧
         ((s.dev.memSt x).track = [(memUnit x a, c, false)] →
           ∃ t, exec (.scrubVisit x a .clean) s = .next t ∧ (t.dev.memSt x).track = [(memUnit x a, c, false)]) ∧
         ((s.dev.memSt x).track = [] → (s.dev.memSt x).subst = [] → bit s.dev.bist.memCfg 1 = true →
           ∃ t, exec (.scrubVisit x a .corrected) s = .next t ∧ (t.dev.memSt x).track = [(memUnit x a, 1, true)] ∧ t.dev.flt = s.dev.flt) ∧
         (fld s.dev.bist.memCfg 31 16 = 10 → ticks < 2 ^ 32 →
           ∃ t, exec (.scrubVisit x a (.lapEnd ticks)) s = .next t ∧ (t.dev.memSt x).lap.toNat = ticks ∧
             (t.dev.memSt x).lapLate = (if 250000000 < ticks ∧ (s.dev.memSt x).lapLate ≠ 3 then (s.dev.memSt x).lapLate + 1
               else (s.dev.memSt x).lapLate) ∧ t.dev = s.dev.setMem x (t.dev.memSt x))) ∧
       (bit s.dev.bist.memCfg 0 = false → (f = .clean ∨ f = .corrected ∨ f = .lapEnd ticks) →
         exec (.scrubVisit x a f) s = .next s))) ∧
  (∀ (s : State) (n : Fin 16) (a : Nat) (seq : Seq) (slot : BitVec 4) (o : Op) (src : Fin 16) (far : Bool), s.safe →
       s.dev.sys.mode = .run → a < 65536 → s.dev.flt.port[n.val].raised = 0 → isRaised s.dev 0x043 = false →
       (∀ x, (s.dev.memSt x).track = []) →
       (∃ t, exec (.uncorrectableAccess (portMem n 3) a .pcFetch) s = .next t ∧ (t.dev.port n).pc.up = false ∧
         (t.dev.port n).link = (s.dev.port n).link ∧ t.dev.sys.mgrUp = s.dev.sys.mgrUp ∧
         ((s.dev.memSt (portMem n 3)).poisoned = [] → (t.dev.memSt (portMem n 3)).poisoned = [memUnit (portMem n 3) a] ∧
           ((s.dev.memSt (portMem n 3)).uncorr ≠ 255 →
             (t.dev.memSt (portMem n 3)).uncorr = (s.dev.memSt (portMem n 3)).uncorr + 1) ∧
           (isLive s.dev (srcPort n 13) = false → isRaised t.dev (srcPort n 13) = true)) ∧
         (memUnit (portMem n 3) a ∈ (s.dev.memSt (portMem n 3)).poisoned → t.dev.mem = s.dev.mem ∧ t.dev.flt = s.dev.flt)) ∧
       (∃ t, exec (.uncorrectableAccess 130 a .mgrAccess) s = .next t ∧ t.dev.sys.mgrUp = false ∧
         (s.dev.sys.restarts ≠ 0xFFFFFFFF → t.dev.sys.restarts = s.dev.sys.restarts + 1) ∧ (t.dev.port n).link = (s.dev.port n).link) ∧
       (∃ t, exec (.uncorrectableAccess (portMem n 0) a (.reorder seq slot)) s = .next t ∧
         ((findEntry (s.dev.port n).rtx seq slot).isSome = true →
           (findEntry (t.dev.port n).rtx seq slot).bind (·.data) = none) ∧
         (t.dev.port n).link = (s.dev.port n).link ∧ (t.dev.port n).pc = (s.dev.port n).pc) ∧
       (∃ t, exec (.uncorrectableAccess (portMem n 1) a .upstream) s = .next t ∧
         (t.dev.port n).up.blocks.length = (s.dev.port n).up.blocks.length ∧ (t.dev.port n).up.blocks.tail = (s.dev.port n).up.blocks.tail ∧
         ((s.dev.port n).up.blocks ≠ [] → (t.dev.port n).up.blocks.head? = some errorBlock) ∧
         ((s.dev.port n).up.drop ≠ 0x7FFF → (t.dev.port n).up.drop = (s.dev.port n).up.drop + 1)) ∧
       ((s.dev.memSt (portMem n 2)).poisoned = [] →
         (∃ t, exec (.uncorrectableAccess (portMem n 2) a (.coefficient true (some src) far)) s = .next t ∧
           (filt (t.dev.port n) src far).st = fOut ∧ (t.dev.port n).link = (s.dev.port n).link) ∧
         (∃ t, exec (.uncorrectableAccess (portMem n 2) a (.coefficient false (some src) far)) s = .next t ∧
           (filt (t.dev.port n) src far).st = (filt (s.dev.port n) src far).st ∧
           (filt (t.dev.port n) src far).c = (filt (s.dev.port n) src far).a) ∧
         ((s.dev.port n).link.st = .up → bit s.dev.pwr.padPort n.val = false →
           ∃ t, exec (.uncorrectableAccess (portMem n 2) a (.coefficient true none far)) s = .next t ∧
             (t.dev.port n).link.st = .training)) ∧
       (s.dev.host.ops = [o] →
         ∃ t, exec (.uncorrectableAccess 128 a (.handleEntry o.handle)) s = .next t ∧ t.dev.host.ops = [] ∧
           ((s.dev.memSt 128).poisoned = [] → isLive s.dev 0x043 = false → isRaised t.dev 0x043 = true)) ∧
       (bit s.dev.bist.memCfg 0 = true → (s.dev.memSt (portMem n 3)).poisoned = [] → (s.dev.memSt (portMem n 3)).subst = [] →
         s.dev.bist.reload = [] →
         ∃ t, exec (.scrubVisit (portMem n 3) a (.uncorrectable .firmware)) s = .next t ∧
           t.dev.bist.reload = [((portMem n 3).val, a / 4096)] ∧ (t.dev.port n).pc = (s.dev.port n).pc ∧
           (∃ u, exec (.pageReloadDone (portMem n 3) true) t = .next u ∧ u.dev.bist.reload = [] ∧
             (u.dev.port n).pc = (s.dev.port n).pc) ∧
           ∃ u, exec (.pageReloadDone (portMem n 3) false) t = .next u ∧ u.dev.bist.reload = [] ∧ (u.dev.port n).pc.up = false) ∧
       (s.dev.bist.reload = [((portMem n 3).val, a)] →
         exec (.pageReloadDone (portMem n 3) true) s = .next { s with dev := { s.dev with bist := { s.dev.bist with reload := [] } } } ∧
         ∃ t, exec (.pageReloadDone (portMem n 3) false) s = .next t ∧ t.dev.bist.reload = [] ∧ (t.dev.port n).pc.up = false) ∧
       (s.dev.bist.reload = [] → exec (.pageReloadDone (portMem n 3) false) s = .next s))

/-- R554, R556, R559, R560, R561, R562: Self-tests. The timer starts a pass on every UP port where INSVC_EN is set, and places its
first slice. A logic test ends, and a failure retires the port under POLICY 2 only. Privileged tests start in MAINTAIN in the
order of their bits, never two on one supply group, at least 500 µs apart; the one of the manager's memory restarts it; when all
have ended the command completes. Readings that are the choice of the model: assumptions 98, 99, 102, 153. -/
def Obligations.selfTests : Prop :=
  ∀ (s : State) (n : Fin 16) (failing : W32) (i : Fin 4) (failed : Bool) (src reader : Fin 16) (o : Op), s.safe →
    (s.dev.sys.mode = .run → bit s.dev.bist.cfg 2 = true → (s.dev.port n).bist.passRun = false → (s.dev.port n).bist.op = none →
      (s.dev.port n).link.st = .up →
      ∃ t, exec .insvcPassTimer s = .next t ∧ (t.dev.port n).bist.passRun = true ∧ (t.dev.port n).bist.slice = 0 ∧
        (t.dev.hal.cal.any fun e => e.action == 0x03 && e.trig == 3 && e.ports == portMask n && e.handle == 0xFFFF && e.arg == 0) = true ∧
        (t.dev.port n).link = (s.dev.port n).link ∧ t.dev.flt = s.dev.flt ∧
        ∀ k, (s.dev.port k).link.st ≠ .up → t.dev.port k = s.dev.port k) ∧
    (powered s.dev = true → bit s.dev.bist.cfg 2 = false → exec .insvcPassTimer s = .next s) ∧
    (powered s.dev = true → (s.dev.port n).bist.logicRun = true → (s.dev.port n).bist.op = some o.handle → s.dev.host.ops = [o] →
      o.final = none → o.left = 1 → o.fails = 0 → o.fails1 = 0 → (s.dev.port n).link.st = .isolated →
      (∃ t, exec (.logicBistEnd n 0) s = .next t ∧ endedWith t o.handle = some 0 ∧ (t.dev.port n).bist.logicRun = false ∧
        (t.dev.port n).bist.logicFail = false ∧ (t.dev.port n).link = (s.dev.port n).link ∧ t.dev.flt = s.dev.flt) ∧
      (failing ≠ 0 → isRaised s.dev (srcPort n 15) = false →
        ∃ t, exec (.logicBistEnd n failing) s = .next t ∧ endedWith t o.handle = some 0x001E ∧
          (t.dev.port n).bist.logicRun = false ∧
          (t.dev.port n).link.st = (if fld s.dev.bist.cfg 1 0 = 2 then PortSt.retired else .isolated) ∧
          ((findOp t.dev o.handle).bind (·.final)).map (·.r1) = some failing ∧
          (isLive s.dev (srcPort n 15) = false → isRaised t.dev (srcPort n 15) = true))) ∧
    (powered s.dev = true → (s.dev.port n).bist.logicRun = false → exec (.logicBistEnd n failing) s = .next s) ∧
    (s.dev.sys.mode = .maintain → s.dev.bist.privOp = some o.handle → bit s.dev.bist.privLeft i.val = true →
      (∀ j : Fin 4, j < i → bit s.dev.bist.privLeft j.val = false) →
      ((∀ j : Fin 4, bit s.dev.bist.privRun j.val = false) →
        ∃ t, exec (.privTestStart i) s = .next t ∧ bit t.dev.bist.privRun i.val = true ∧ bit t.dev.bist.privLeft i.val = false ∧
          t.dev.bist.privAt = some t.dev.dt.dt ∧
          (s.dev.dt.running = true → (s.dev.bist.privAt.all fun x => decide (x + 125000 ≤ t.dev.dt.dt)) = true) ∧
          t.dev.sys.mgrUp = (if i = 3 then false else s.dev.sys.mgrUp)) ∧
      (i = 1 → bit s.dev.bist.privRun 0 = true → s.dev.bist.privLeft = 2 → exec (.privTestStart i) s = .next s)) ∧
    (s.dev.sys.mode = .run → exec (.privTestStart i) s = .next s) ∧
    (s.dev.sys.mode = .maintain → bit s.dev.bist.privRun i.val = false → exec (.privTestEnd i failed src reader []) s = .next s) ∧
    (s.dev.sys.mode = .maintain → s.dev.bist.privOp = some o.handle → s.dev.host.ops = [o] → o.final = none → o.fails1 = 0 →
      s.dev.bist.privLeft = 0 → s.dev.sys.mgrUp = true →
      (s.dev.bist.privRun = 1 →
        (∃ t, exec (.privTestEnd 0 false src reader []) s = .next t ∧ endedWith t o.handle = some 0 ∧ t.dev.bist.privRun = 0 ∧
          t.dev.flt = s.dev.flt) ∧
        (∃ t, exec (.privTestEnd 0 true src reader []) s = .next t ∧ endedWith t o.handle = some 0x001E ∧
          bit t.dev.bist.privFail 0 = true ∧ ((findOp t.dev o.handle).bind (·.final)).map (·.r1) = some 1 ∧
          (isLive s.dev 0x060 = false → isRaised t.dev 0x060 = true))) ∧
      (s.dev.bist.privRun = 8 → (s.dev.memSt 130).subst = [] → spareFree (s.dev.memSt 130) 0 = true →
        ∃ t, exec (.privTestEnd 3 true src reader [(130, 0, 5)]) s = .next t ∧ endedWith t o.handle = some 0x001E ∧
          (t.dev.memSt 130).subst = [(0, 5)] ∧ (isLive s.dev 0x042 = false → isRaised t.dev 0x042 = true)) ∧
      (s.dev.bist.privRun = 4 →
        ∃ t, exec (.privTestEnd 2 true src reader []) s = .next t ∧ endedWith t o.handle = some 0x001E ∧
          bit (t.dev.port reader).shr.barred src.val = true ∧
          ((filt (s.dev.port reader) src false).st = fOut → (filt (t.dev.port reader) src false).st = fOut) ∧
          ((filt (s.dev.port reader) src true).st = fOut → (filt (t.dev.port reader) src true).st = fOut)))

/-! ### The redundant pair -/

/-- R611: What a device sends in a heartbeat is what the peer reads from it: the message is correct, and each field is the sender's
at its first bit. -/
def Obligations.heartbeatRoundTrip : Prop :=
  ∀ d : Dev, (parseHeartbeat (heartbeatBits d)).correct = true ∧
    (parseHeartbeat (heartbeatBits d)).role = (roleCode d).toNat ∧ (parseHeartbeat (heartbeatBits d)).pepoch = d.pair.pepoch ∧
    (parseHeartbeat (heartbeatBits d)).devid = devId d ∧ (parseHeartbeat (heartbeatBits d)).seq = d.pair.seq ∧
    (parseHeartbeat (heartbeatBits d)).t16 = d.dt.dt.toNat * 65536 + d.dt.frac.toNat ∧
    (parseHeartbeat (heartbeatBits d)).frame = d.rpos.frame ∧ (parseHeartbeat (heartbeatBits d)).line = d.rpos.line.toNat ∧
    (parseHeartbeat (heartbeatBits d)).rphase = d.rpos.phase.toNat ∧
    (parseHeartbeat (heartbeatBits d)).rstate = d.raster.st.code ∧ (parseHeartbeat (heartbeatBits d)).upMap = upMap d ∧
    (parseHeartbeat (heartbeatBits d)).mode.toNat = d.sys.mode.code ∧
    (parseHeartbeat (heartbeatBits d)).echoTurn = (d.dt.dt - d.pair.echoAt).toNat % 4096

/-- R608, R609, R611, R612, R613, R615, R616, R617, R621, R625: The roles. PWL_CFG.EN set in RUN starts JOIN, which ends in the role
of a LEAD heard, or of ROLE_SRC; EN cleared ends the pair. A heartbeat goes out with the next HBSEQ, and an interval without one
received counts. A FOLLOW that loses its LEAD confirms for 1 ms and then takes LEAD with the next PEPOCH, unless a dual-homed
port in UP hears that its camera still follows another hub: then it holds, and looks again. Heartbeats received. A wrong one
only counts. A LEAD keeps the role against an older PEPOCH and follows a newer one, whose PEPOCH it adopts. A FOLLOW measures
the link delay and its error, and goes into CONFIRM when the LEAD's mode is neither RUN nor REEF; a confirming device returns to
FOLLOW. A device that joins remembers the LEAD. Readings that are the choice of the model: assumptions 104, 105, 106, 107, 108,
109, 110, 111, 112, 189. -/
def Obligations.redundantPair : Prop :=
  (∀ (s : State) (m : Master) (v : W32) (e : BitVec 5), s.safe → s.dev.sys.mode = .run →
       (reachesAll m = true → s.dev.pwr.pwOn = true → s.dev.clk.coreSrc ≠ 2 → bit s.dev.pair.cfg 0 = false → bit v 0 = true →
         ∃ t, exec (.pairEnable m v) s = .next t ∧ t.dev.pair.st = .join ∧ t.dev.pair.cfg = v &&& 7 ∧ t.dev.ports = s.dev.ports) ∧
       (reachesAll m = true → s.dev.pwr.pwOn = true → s.dev.clk.coreSrc ≠ 2 → bit s.dev.pair.cfg 0 = true → bit v 0 = false →
         ∃ t, exec (.pairEnable m v) s = .next t ∧ t.dev.pair.st = .off ∧ t.dev.pair.cfg = v &&& 7 ∧ t.dev.pair.peerOk = false ∧
           bit (group t.dev (.device 7)).hwLive 0 = false) ∧
       (reachesAll m = false → exec (.pairEnable m v) s = .next s) ∧
       (bit s.dev.pair.cfg 0 = true → s.dev.pair.st = .join →
         (s.dev.pair.joinLead = some e →
           ∃ t, exec .joinEnd s = .next t ∧ t.dev.pair.st = .follow ∧ t.dev.pair.pepoch = e ∧ srcAct t.dev = 2 ∧
             effLock t.dev = 2 ∧ t.dev.clk.lpllCfg >>> 26 = 0x1F) ∧
         (s.dev.pair.joinLead = none → fld s.dev.pair.cfg 2 1 = 1 →
           ∃ t, exec .joinEnd s = .next t ∧ t.dev.pair = { s.dev.pair with st := .lead } ∧ t.dev.clk.lpllCfg = s.dev.clk.lpllCfg) ∧
         (s.dev.pair.joinLead = none → fld s.dev.pair.cfg 2 1 = 2 →
           ∃ t, exec .joinEnd s = .next t ∧ t.dev.pair.st = .confirm ∧ t.dev.pair.pepoch = s.dev.pair.pepoch)) ∧
       (s.dev.pair.st ≠ .join → exec .joinEnd s = .next s) ∧
       (bit s.dev.pair.cfg 0 = true → s.dev.pair.st ≠ .off → s.dev.pwr.pwOn = true →
         ∃ t, exec .heartbeatSend s = .next t ∧ Output.heartbeat (heartbeatBits s.dev) ∈ sent s t ∧ t.dev.pair.seq = s.dev.pair.seq + 1 ∧
           t.dev.pair.hbMiss = (if s.dev.pair.since then s.dev.pair.hbMiss else satInc s.dev.pair.hbMiss) ∧
           t.dev.ports = s.dev.ports ∧ t.dev.flt = s.dev.flt) ∧
       (s.dev.pwr.pwOn = false → exec .heartbeatSend s = .next s) ∧
       (bit s.dev.pair.cfg 0 = true → s.dev.pair.st = .follow → isRaised s.dev 0x070 = false → isRaised s.dev 0x012 = false →
         ∃ t, exec .heartbeatLoss s = .next t ∧ t.dev.pair.st = .confirm ∧ t.dev.pair.peerOk = false ∧ isLive t.dev 0x070 = true ∧
           (s.dev.clk.lpll = .locked → s.dev.clk.lpllCfg >>> 26 = 0x1F → t.dev.clk.lpll = .holdover) ∧ t.dev.ports = s.dev.ports) ∧
       (bit s.dev.pair.cfg 0 = true → s.dev.pair.st = .lead → s.dev.clk.lpllIn ≠ some .partyWall → isRaised s.dev 0x070 = false →
         ∃ t, exec .heartbeatLoss s = .next t ∧ t.dev.pair.st = .lead ∧ isLive t.dev 0x070 = true ∧
           t.dev.clk.lpll = s.dev.clk.lpll) ∧
       (bit s.dev.pair.cfg 0 = false → exec .heartbeatLoss s = .next s ∧ exec .pwLaneTimeout s = .next s) ∧
       (bit s.dev.pair.cfg 0 = true → s.dev.pair.st ≠ .off →
         (pwLocked s.dev = false → isRaised s.dev 0x072 = false →
           ∃ t, exec .pwLaneTimeout s = .next t ∧ isLive t.dev 0x072 = true ∧ t.dev.pair = s.dev.pair) ∧
         (pwLocked s.dev = true → exec .pwLaneTimeout s = .next s)) ∧
       (bit s.dev.pair.cfg 0 = true → s.dev.pair.st = .confirm → s.dev.pair.heard = some e → isLive s.dev 0x071 = false →
         isRaised s.dev 0x071 = false →
         (mayTakeLead s.dev = true →
           ∃ t, exec .confirmExpiry s = .next t ∧ t.dev.pair.st = .lead ∧ t.dev.pair.pepoch = e + 1 ∧ isRaised t.dev 0x071 = true ∧
             t.dev.pair.takeovers = satInc s.dev.pair.takeovers ∧ t.dev.clk.lpllCfg >>> 26 = 0x0F ∧
             t.dev.dt.dt = s.dev.dt.dt ∧ t.dev.dt.epoch = s.dev.dt.epoch) ∧
         (mayTakeLead s.dev = false →
           ∃ t, exec .confirmExpiry s = .next t ∧ t.dev = { s.dev with pair := { s.dev.pair with st := .hold } })) ∧
       (bit s.dev.pair.cfg 0 = true → s.dev.pair.st = .hold → s.dev.pair.heard = some e → isRaised s.dev 0x071 = false →
         (mayTakeLead s.dev = true →
           ∃ t, exec .pairHoldReevaluate s = .next t ∧ t.dev.pair.st = .lead ∧ t.dev.pair.pepoch = e + 1) ∧
         (mayTakeLead s.dev = false → exec .pairHoldReevaluate s = .next s)) ∧
       (s.dev.pair.st ≠ .confirm → exec .confirmExpiry s = .next s) ∧
       (s.dev.pair.st ≠ .hold → exec .pairHoldReevaluate s = .next s)) ∧
  (∀ (s : State) (b : BitVec 256) (x : Int), s.safe → s.dev.sys.mode = .run → bit s.dev.pair.cfg 0 = true →
       s.dev.pair.st ≠ .off → s.dev.pwr.pwOn = true → ((s.dev.lane 18).rx = .locked ∨ (s.dev.lane 19).rx = .locked) →
       ((parseHeartbeat b).correct = false →
         ∃ t, exec (.heartbeatReceived b) s = .next t ∧
           t.dev = { s.dev with pair := { s.dev.pair with hbBad := satInc s.dev.pair.hbBad } }) ∧
       ((parseHeartbeat b).correct = true →
         (∃ t, exec (.heartbeatReceived b) s = .next t ∧ t.dev.pair.heard = some (parseHeartbeat b).pepoch ∧
           t.dev.pair.peerOk = true ∧ t.dev.pair.since = true ∧ t.dev.pair.echoSeq = (parseHeartbeat b).seq ∧
           t.dev.pair.peerMode = (parseHeartbeat b).mode ∧ t.dev.pair.peerDevid = (parseHeartbeat b).devid ∧
           t.dev.pair.peerUp = (parseHeartbeat b).upMap) ∧
         ((parseHeartbeat b).role = 1 → s.dev.pair.st = .join →
           ∃ t, exec (.heartbeatReceived b) s = .next t ∧ t.dev.pair.st = .join ∧
             t.dev.pair.joinLead = some (parseHeartbeat b).pepoch) ∧
         ((parseHeartbeat b).role = 1 → s.dev.pair.st = .lead →
           (s.dev.pair.pepoch = (parseHeartbeat b).pepoch + 1 →
             ∃ t, exec (.heartbeatReceived b) s = .next t ∧ t.dev.pair.st = .lead ∧ t.dev.pair.pepoch = s.dev.pair.pepoch ∧
               t.dev.dt = s.dev.dt) ∧
           ((parseHeartbeat b).pepoch = s.dev.pair.pepoch + 1 → (parseHeartbeat b).mode = 3 →
             ∃ t, exec (.heartbeatReceived b) s = .next t ∧ t.dev.pair.st = .follow ∧
               t.dev.pair.pepoch = (parseHeartbeat b).pepoch)) ∧
         ((parseHeartbeat b).role = 1 → s.dev.pair.st = .follow →
           (((parseHeartbeat b).mode = 3 ∨ (parseHeartbeat b).mode = 6) →
             s.dev.pair.sentAt = [((parseHeartbeat b).echoSeq, x)] → x + (parseHeartbeat b).echoTurn * 65536 ≤ s.dev.t16 →
             s.dev.t16 < x + (parseHeartbeat b).echoTurn * 65536 + 65536 * 8192 →
             ∃ t, exec (.heartbeatReceived b) s = .next t ∧ t.dev.pair.st = .follow ∧
               (t.dev.pair.delay.toNat : Int) = (s.dev.t16 - x - (parseHeartbeat b).echoTurn * 65536) / 8192 ∧
               t.dev.pair.resid = s16 (((parseHeartbeat b).t16 + t.dev.pair.delay.toNat * 4096 - s.dev.t16) / 4096) ∧
               (((parseHeartbeat b).t16 : Int) + t.dev.pair.delay.toNat * 4096 = s.dev.t16 → s.dev.pair.good = 15 →
                 t.dev.dt.dt = s.dev.dt.dt ∧ t.dev.dt.epoch = s.dev.dt.epoch ∧ t.dev.dt.locked = true ∧ t.dev.dt.coarse = false)) ∧
           ((parseHeartbeat b).mode = 4 →
             ∃ t, exec (.heartbeatReceived b) s = .next t ∧ t.dev.pair.st = .confirm ∧ t.dev.dt.dt = s.dev.dt.dt)) ∧
         ((parseHeartbeat b).role = 1 → (s.dev.pair.st = .confirm ∨ s.dev.pair.st = .hold) →
           ((parseHeartbeat b).mode = 3 → ∃ t, exec (.heartbeatReceived b) s = .next t ∧ t.dev.pair.st = .follow) ∧
           ((parseHeartbeat b).mode = 4 →
             ∃ t, exec (.heartbeatReceived b) s = .next t ∧ t.dev.pair.st = s.dev.pair.st))))

/-! ### Ports apart -/

/-- R38: What happens on one port leaves the link of every other as it was: a downshift, a fast retrain, a fence or another
occurrence of one of its fault sources, a retirement, and every state that it enters. No source of a port changes the device
mode. -/
def Obligations.portsApart : Prop :=
  ∀ (d : Dev) (n k : Fin 16) (st : PortSt) (m : LineMode) (tone : Bool) (src : BitVec 4) (lvl : Nat), k ≠ n →
    ((enterSt d n st).port k).link = (d.port k).link ∧
    ((switchMode d n m).port k).link = (d.port k).link ∧
    ((retrain d n tone).port k).link = (d.port k).link ∧
    ((retirePort d n).port k).link = (d.port k).link ∧
    ((failAttempt d n 9).port k).link = (d.port k).link ∧
    ((occur d (srcPort n src.toNat) lvl).port k).link = (d.port k).link ∧
    ((setLive d (srcPort n src.toNat) true).port k).link = (d.port k).link ∧
    (occur d (srcPort n src.toNat) lvl).sys.mode = d.sys.mode
end

