-- ==== Sys2Proof/Laws/State.lean ====
section
/-! SUPPORT. What each update of the block leaves alone: one lemma per field, so that no proof unfolds a record update. -/
namespace Sys2Proof.Machine

@[simp] theorem vmap_getElem {α β : Type} {k : Nat} (v : Vector α k) (g : α → β) (i : Nat) (h : i < k) :
    (vmap v g)[i] = g v[i] := by simp [vmap]

theorem vany_eq_true {α : Type} {k : Nat} (v : Vector α k) (g : α → Bool) :
    vany v g = true ↔ ∃ i : Fin k, g v[i.val] = true := by simp [vany]

variable (d : Dev) (n : Fin 16) (m : Fin 20) (f : Fn)

/-! ### setPort -/

@[simp] theorem Dev.setPort_sys (p : Port) : (d.setPort n p).sys = d.sys := rfl
@[simp] theorem Dev.setPort_pins (p : Port) : (d.setPort n p).pins = d.pins := rfl
@[simp] theorem Dev.setPort_clk (p : Port) : (d.setPort n p).clk = d.clk := rfl
@[simp] theorem Dev.setPort_pwr (p : Port) : (d.setPort n p).pwr = d.pwr := rfl
@[simp] theorem Dev.setPort_avs (p : Port) : (d.setPort n p).avs = d.avs := rfl
@[simp] theorem Dev.setPort_dt (p : Port) : (d.setPort n p).dt = d.dt := rfl
@[simp] theorem Dev.setPort_raster (p : Port) : (d.setPort n p).raster = d.raster := rfl
@[simp] theorem Dev.setPort_hal (p : Port) : (d.setPort n p).hal = d.hal := rfl
@[simp] theorem Dev.setPort_flt (p : Port) : (d.setPort n p).flt = d.flt := rfl
@[simp] theorem Dev.setPort_host (p : Port) : (d.setPort n p).host = d.host := rfl
@[simp] theorem Dev.setPort_mbxS (p : Port) : (d.setPort n p).mbxS = d.mbxS := rfl
@[simp] theorem Dev.setPort_mbxN (p : Port) : (d.setPort n p).mbxN = d.mbxN := rfl
@[simp] theorem Dev.setPort_acc (p : Port) : (d.setPort n p).acc = d.acc := rfl
@[simp] theorem Dev.setPort_cfg (p : Port) : (d.setPort n p).cfg = d.cfg := rfl
@[simp] theorem Dev.setPort_boot (p : Port) : (d.setPort n p).boot = d.boot := rfl
@[simp] theorem Dev.setPort_lanes (p : Port) : (d.setPort n p).lanes = d.lanes := rfl
@[simp] theorem Dev.setPort_mem (p : Port) : (d.setPort n p).mem = d.mem := rfl
@[simp] theorem Dev.setPort_bist (p : Port) : (d.setPort n p).bist = d.bist := rfl
@[simp] theorem Dev.setPort_age (p : Port) : (d.setPort n p).age = d.age := rfl
@[simp] theorem Dev.setPort_pair (p : Port) : (d.setPort n p).pair = d.pair := rfl
@[simp] theorem Dev.setPort_out (p : Port) : (d.setPort n p).out = d.out := rfl
@[simp] theorem Dev.setPort_free (p : Port) : (d.setPort n p).free = d.free := rfl

/-! ### modPort -/

@[simp] theorem Dev.modPort_sys (g : Port → Port) : (d.modPort n g).sys = d.sys := rfl
@[simp] theorem Dev.modPort_pins (g : Port → Port) : (d.modPort n g).pins = d.pins := rfl
@[simp] theorem Dev.modPort_clk (g : Port → Port) : (d.modPort n g).clk = d.clk := rfl
@[simp] theorem Dev.modPort_pwr (g : Port → Port) : (d.modPort n g).pwr = d.pwr := rfl
@[simp] theorem Dev.modPort_avs (g : Port → Port) : (d.modPort n g).avs = d.avs := rfl
@[simp] theorem Dev.modPort_dt (g : Port → Port) : (d.modPort n g).dt = d.dt := rfl
@[simp] theorem Dev.modPort_raster (g : Port → Port) : (d.modPort n g).raster = d.raster := rfl
@[simp] theorem Dev.modPort_hal (g : Port → Port) : (d.modPort n g).hal = d.hal := rfl
@[simp] theorem Dev.modPort_flt (g : Port → Port) : (d.modPort n g).flt = d.flt := rfl
@[simp] theorem Dev.modPort_host (g : Port → Port) : (d.modPort n g).host = d.host := rfl
@[simp] theorem Dev.modPort_mbxS (g : Port → Port) : (d.modPort n g).mbxS = d.mbxS := rfl
@[simp] theorem Dev.modPort_mbxN (g : Port → Port) : (d.modPort n g).mbxN = d.mbxN := rfl
@[simp] theorem Dev.modPort_acc (g : Port → Port) : (d.modPort n g).acc = d.acc := rfl
@[simp] theorem Dev.modPort_cfg (g : Port → Port) : (d.modPort n g).cfg = d.cfg := rfl
@[simp] theorem Dev.modPort_boot (g : Port → Port) : (d.modPort n g).boot = d.boot := rfl
@[simp] theorem Dev.modPort_lanes (g : Port → Port) : (d.modPort n g).lanes = d.lanes := rfl
@[simp] theorem Dev.modPort_mem (g : Port → Port) : (d.modPort n g).mem = d.mem := rfl
@[simp] theorem Dev.modPort_bist (g : Port → Port) : (d.modPort n g).bist = d.bist := rfl
@[simp] theorem Dev.modPort_age (g : Port → Port) : (d.modPort n g).age = d.age := rfl
@[simp] theorem Dev.modPort_pair (g : Port → Port) : (d.modPort n g).pair = d.pair := rfl
@[simp] theorem Dev.modPort_out (g : Port → Port) : (d.modPort n g).out = d.out := rfl
@[simp] theorem Dev.modPort_free (g : Port → Port) : (d.modPort n g).free = d.free := rfl

/-! ### setLane -/

@[simp] theorem Dev.setLane_sys (l : LaneSt) : (d.setLane m l).sys = d.sys := rfl
@[simp] theorem Dev.setLane_pins (l : LaneSt) : (d.setLane m l).pins = d.pins := rfl
@[simp] theorem Dev.setLane_clk (l : LaneSt) : (d.setLane m l).clk = d.clk := rfl
@[simp] theorem Dev.setLane_pwr (l : LaneSt) : (d.setLane m l).pwr = d.pwr := rfl
@[simp] theorem Dev.setLane_avs (l : LaneSt) : (d.setLane m l).avs = d.avs := rfl
@[simp] theorem Dev.setLane_dt (l : LaneSt) : (d.setLane m l).dt = d.dt := rfl
@[simp] theorem Dev.setLane_raster (l : LaneSt) : (d.setLane m l).raster = d.raster := rfl
@[simp] theorem Dev.setLane_hal (l : LaneSt) : (d.setLane m l).hal = d.hal := rfl
@[simp] theorem Dev.setLane_flt (l : LaneSt) : (d.setLane m l).flt = d.flt := rfl
@[simp] theorem Dev.setLane_host (l : LaneSt) : (d.setLane m l).host = d.host := rfl
@[simp] theorem Dev.setLane_mbxS (l : LaneSt) : (d.setLane m l).mbxS = d.mbxS := rfl
@[simp] theorem Dev.setLane_mbxN (l : LaneSt) : (d.setLane m l).mbxN = d.mbxN := rfl
@[simp] theorem Dev.setLane_acc (l : LaneSt) : (d.setLane m l).acc = d.acc := rfl
@[simp] theorem Dev.setLane_cfg (l : LaneSt) : (d.setLane m l).cfg = d.cfg := rfl
@[simp] theorem Dev.setLane_boot (l : LaneSt) : (d.setLane m l).boot = d.boot := rfl
@[simp] theorem Dev.setLane_ports (l : LaneSt) : (d.setLane m l).ports = d.ports := rfl
@[simp] theorem Dev.setLane_mem (l : LaneSt) : (d.setLane m l).mem = d.mem := rfl
@[simp] theorem Dev.setLane_bist (l : LaneSt) : (d.setLane m l).bist = d.bist := rfl
@[simp] theorem Dev.setLane_age (l : LaneSt) : (d.setLane m l).age = d.age := rfl
@[simp] theorem Dev.setLane_pair (l : LaneSt) : (d.setLane m l).pair = d.pair := rfl
@[simp] theorem Dev.setLane_out (l : LaneSt) : (d.setLane m l).out = d.out := rfl
@[simp] theorem Dev.setLane_free (l : LaneSt) : (d.setLane m l).free = d.free := rfl

/-! ### modLane -/

@[simp] theorem Dev.modLane_sys (g : LaneSt → LaneSt) : (d.modLane m g).sys = d.sys := rfl
@[simp] theorem Dev.modLane_pins (g : LaneSt → LaneSt) : (d.modLane m g).pins = d.pins := rfl
@[simp] theorem Dev.modLane_clk (g : LaneSt → LaneSt) : (d.modLane m g).clk = d.clk := rfl
@[simp] theorem Dev.modLane_pwr (g : LaneSt → LaneSt) : (d.modLane m g).pwr = d.pwr := rfl
@[simp] theorem Dev.modLane_avs (g : LaneSt → LaneSt) : (d.modLane m g).avs = d.avs := rfl
@[simp] theorem Dev.modLane_dt (g : LaneSt → LaneSt) : (d.modLane m g).dt = d.dt := rfl
@[simp] theorem Dev.modLane_raster (g : LaneSt → LaneSt) : (d.modLane m g).raster = d.raster := rfl
@[simp] theorem Dev.modLane_hal (g : LaneSt → LaneSt) : (d.modLane m g).hal = d.hal := rfl
@[simp] theorem Dev.modLane_flt (g : LaneSt → LaneSt) : (d.modLane m g).flt = d.flt := rfl
@[simp] theorem Dev.modLane_host (g : LaneSt → LaneSt) : (d.modLane m g).host = d.host := rfl
@[simp] theorem Dev.modLane_mbxS (g : LaneSt → LaneSt) : (d.modLane m g).mbxS = d.mbxS := rfl
@[simp] theorem Dev.modLane_mbxN (g : LaneSt → LaneSt) : (d.modLane m g).mbxN = d.mbxN := rfl
@[simp] theorem Dev.modLane_acc (g : LaneSt → LaneSt) : (d.modLane m g).acc = d.acc := rfl
@[simp] theorem Dev.modLane_cfg (g : LaneSt → LaneSt) : (d.modLane m g).cfg = d.cfg := rfl
@[simp] theorem Dev.modLane_boot (g : LaneSt → LaneSt) : (d.modLane m g).boot = d.boot := rfl
@[simp] theorem Dev.modLane_ports (g : LaneSt → LaneSt) : (d.modLane m g).ports = d.ports := rfl
@[simp] theorem Dev.modLane_mem (g : LaneSt → LaneSt) : (d.modLane m g).mem = d.mem := rfl
@[simp] theorem Dev.modLane_bist (g : LaneSt → LaneSt) : (d.modLane m g).bist = d.bist := rfl
@[simp] theorem Dev.modLane_age (g : LaneSt → LaneSt) : (d.modLane m g).age = d.age := rfl
@[simp] theorem Dev.modLane_pair (g : LaneSt → LaneSt) : (d.modLane m g).pair = d.pair := rfl
@[simp] theorem Dev.modLane_out (g : LaneSt → LaneSt) : (d.modLane m g).out = d.out := rfl
@[simp] theorem Dev.modLane_free (g : LaneSt → LaneSt) : (d.modLane m g).free = d.free := rfl

/-! ### setFn -/

@[simp] theorem Dev.setFn_sys (x : FnSt) : (d.setFn f x).sys = d.sys := by cases f <;> rfl
@[simp] theorem Dev.setFn_pins (x : FnSt) : (d.setFn f x).pins = d.pins := by cases f <;> rfl
@[simp] theorem Dev.setFn_clk (x : FnSt) : (d.setFn f x).clk = d.clk := by cases f <;> rfl
@[simp] theorem Dev.setFn_pwr (x : FnSt) : (d.setFn f x).pwr = d.pwr := by cases f <;> rfl
@[simp] theorem Dev.setFn_avs (x : FnSt) : (d.setFn f x).avs = d.avs := by cases f <;> rfl
@[simp] theorem Dev.setFn_dt (x : FnSt) : (d.setFn f x).dt = d.dt := by cases f <;> rfl
@[simp] theorem Dev.setFn_raster (x : FnSt) : (d.setFn f x).raster = d.raster := by cases f <;> rfl
@[simp] theorem Dev.setFn_hal (x : FnSt) : (d.setFn f x).hal = d.hal := by cases f <;> rfl
@[simp] theorem Dev.setFn_flt (x : FnSt) : (d.setFn f x).flt = d.flt := by cases f <;> rfl
@[simp] theorem Dev.setFn_mbxS (x : FnSt) : (d.setFn f x).mbxS = d.mbxS := by cases f <;> rfl
@[simp] theorem Dev.setFn_mbxN (x : FnSt) : (d.setFn f x).mbxN = d.mbxN := by cases f <;> rfl
@[simp] theorem Dev.setFn_acc (x : FnSt) : (d.setFn f x).acc = d.acc := by cases f <;> rfl
@[simp] theorem Dev.setFn_cfg (x : FnSt) : (d.setFn f x).cfg = d.cfg := by cases f <;> rfl
@[simp] theorem Dev.setFn_boot (x : FnSt) : (d.setFn f x).boot = d.boot := by cases f <;> rfl
@[simp] theorem Dev.setFn_ports (x : FnSt) : (d.setFn f x).ports = d.ports := by cases f <;> rfl
@[simp] theorem Dev.setFn_lanes (x : FnSt) : (d.setFn f x).lanes = d.lanes := by cases f <;> rfl
@[simp] theorem Dev.setFn_mem (x : FnSt) : (d.setFn f x).mem = d.mem := by cases f <;> rfl
@[simp] theorem Dev.setFn_bist (x : FnSt) : (d.setFn f x).bist = d.bist := by cases f <;> rfl
@[simp] theorem Dev.setFn_age (x : FnSt) : (d.setFn f x).age = d.age := by cases f <;> rfl
@[simp] theorem Dev.setFn_pair (x : FnSt) : (d.setFn f x).pair = d.pair := by cases f <;> rfl
@[simp] theorem Dev.setFn_out (x : FnSt) : (d.setFn f x).out = d.out := by cases f <;> rfl
@[simp] theorem Dev.setFn_free (x : FnSt) : (d.setFn f x).free = d.free := by cases f <;> rfl

/-! ### modFn -/

@[simp] theorem Dev.modFn_sys (g : FnSt → FnSt) : (d.modFn f g).sys = d.sys := by cases f <;> rfl
@[simp] theorem Dev.modFn_pins (g : FnSt → FnSt) : (d.modFn f g).pins = d.pins := by cases f <;> rfl
@[simp] theorem Dev.modFn_clk (g : FnSt → FnSt) : (d.modFn f g).clk = d.clk := by cases f <;> rfl
@[simp] theorem Dev.modFn_pwr (g : FnSt → FnSt) : (d.modFn f g).pwr = d.pwr := by cases f <;> rfl
@[simp] theorem Dev.modFn_avs (g : FnSt → FnSt) : (d.modFn f g).avs = d.avs := by cases f <;> rfl
@[simp] theorem Dev.modFn_dt (g : FnSt → FnSt) : (d.modFn f g).dt = d.dt := by cases f <;> rfl
@[simp] theorem Dev.modFn_raster (g : FnSt → FnSt) : (d.modFn f g).raster = d.raster := by cases f <;> rfl
@[simp] theorem Dev.modFn_hal (g : FnSt → FnSt) : (d.modFn f g).hal = d.hal := by cases f <;> rfl
@[simp] theorem Dev.modFn_flt (g : FnSt → FnSt) : (d.modFn f g).flt = d.flt := by cases f <;> rfl
@[simp] theorem Dev.modFn_mbxS (g : FnSt → FnSt) : (d.modFn f g).mbxS = d.mbxS := by cases f <;> rfl
@[simp] theorem Dev.modFn_mbxN (g : FnSt → FnSt) : (d.modFn f g).mbxN = d.mbxN := by cases f <;> rfl
@[simp] theorem Dev.modFn_acc (g : FnSt → FnSt) : (d.modFn f g).acc = d.acc := by cases f <;> rfl
@[simp] theorem Dev.modFn_cfg (g : FnSt → FnSt) : (d.modFn f g).cfg = d.cfg := by cases f <;> rfl
@[simp] theorem Dev.modFn_boot (g : FnSt → FnSt) : (d.modFn f g).boot = d.boot := by cases f <;> rfl
@[simp] theorem Dev.modFn_ports (g : FnSt → FnSt) : (d.modFn f g).ports = d.ports := by cases f <;> rfl
@[simp] theorem Dev.modFn_lanes (g : FnSt → FnSt) : (d.modFn f g).lanes = d.lanes := by cases f <;> rfl
@[simp] theorem Dev.modFn_mem (g : FnSt → FnSt) : (d.modFn f g).mem = d.mem := by cases f <;> rfl
@[simp] theorem Dev.modFn_bist (g : FnSt → FnSt) : (d.modFn f g).bist = d.bist := by cases f <;> rfl
@[simp] theorem Dev.modFn_age (g : FnSt → FnSt) : (d.modFn f g).age = d.age := by cases f <;> rfl
@[simp] theorem Dev.modFn_pair (g : FnSt → FnSt) : (d.modFn f g).pair = d.pair := by cases f <;> rfl
@[simp] theorem Dev.modFn_out (g : FnSt → FnSt) : (d.modFn f g).out = d.out := by cases f <;> rfl
@[simp] theorem Dev.modFn_free (g : FnSt → FnSt) : (d.modFn f g).free = d.free := by cases f <;> rfl

/-! ### setMem -/

@[simp] theorem Dev.setMem_sys (x : Fin 132) (y : MemSt) : (d.setMem x y).sys = d.sys := rfl
@[simp] theorem Dev.setMem_pins (x : Fin 132) (y : MemSt) : (d.setMem x y).pins = d.pins := rfl
@[simp] theorem Dev.setMem_clk (x : Fin 132) (y : MemSt) : (d.setMem x y).clk = d.clk := rfl
@[simp] theorem Dev.setMem_pwr (x : Fin 132) (y : MemSt) : (d.setMem x y).pwr = d.pwr := rfl
@[simp] theorem Dev.setMem_avs (x : Fin 132) (y : MemSt) : (d.setMem x y).avs = d.avs := rfl
@[simp] theorem Dev.setMem_dt (x : Fin 132) (y : MemSt) : (d.setMem x y).dt = d.dt := rfl
@[simp] theorem Dev.setMem_raster (x : Fin 132) (y : MemSt) : (d.setMem x y).raster = d.raster := rfl
@[simp] theorem Dev.setMem_hal (x : Fin 132) (y : MemSt) : (d.setMem x y).hal = d.hal := rfl
@[simp] theorem Dev.setMem_flt (x : Fin 132) (y : MemSt) : (d.setMem x y).flt = d.flt := rfl
@[simp] theorem Dev.setMem_host (x : Fin 132) (y : MemSt) : (d.setMem x y).host = d.host := rfl
@[simp] theorem Dev.setMem_mbxS (x : Fin 132) (y : MemSt) : (d.setMem x y).mbxS = d.mbxS := rfl
@[simp] theorem Dev.setMem_mbxN (x : Fin 132) (y : MemSt) : (d.setMem x y).mbxN = d.mbxN := rfl
@[simp] theorem Dev.setMem_acc (x : Fin 132) (y : MemSt) : (d.setMem x y).acc = d.acc := rfl
@[simp] theorem Dev.setMem_cfg (x : Fin 132) (y : MemSt) : (d.setMem x y).cfg = d.cfg := rfl
@[simp] theorem Dev.setMem_boot (x : Fin 132) (y : MemSt) : (d.setMem x y).boot = d.boot := rfl
@[simp] theorem Dev.setMem_ports (x : Fin 132) (y : MemSt) : (d.setMem x y).ports = d.ports := rfl
@[simp] theorem Dev.setMem_lanes (x : Fin 132) (y : MemSt) : (d.setMem x y).lanes = d.lanes := rfl
@[simp] theorem Dev.setMem_bist (x : Fin 132) (y : MemSt) : (d.setMem x y).bist = d.bist := rfl
@[simp] theorem Dev.setMem_age (x : Fin 132) (y : MemSt) : (d.setMem x y).age = d.age := rfl
@[simp] theorem Dev.setMem_pair (x : Fin 132) (y : MemSt) : (d.setMem x y).pair = d.pair := rfl
@[simp] theorem Dev.setMem_out (x : Fin 132) (y : MemSt) : (d.setMem x y).out = d.out := rfl
@[simp] theorem Dev.setMem_free (x : Fin 132) (y : MemSt) : (d.setMem x y).free = d.free := rfl

/-! ### emit -/

@[simp] theorem Dev.emit_sys (o : Output) : (d.emit o).sys = d.sys := rfl
@[simp] theorem Dev.emit_pins (o : Output) : (d.emit o).pins = d.pins := rfl
@[simp] theorem Dev.emit_clk (o : Output) : (d.emit o).clk = d.clk := rfl
@[simp] theorem Dev.emit_pwr (o : Output) : (d.emit o).pwr = d.pwr := rfl
@[simp] theorem Dev.emit_avs (o : Output) : (d.emit o).avs = d.avs := rfl
@[simp] theorem Dev.emit_dt (o : Output) : (d.emit o).dt = d.dt := rfl
@[simp] theorem Dev.emit_raster (o : Output) : (d.emit o).raster = d.raster := rfl
@[simp] theorem Dev.emit_hal (o : Output) : (d.emit o).hal = d.hal := rfl
@[simp] theorem Dev.emit_flt (o : Output) : (d.emit o).flt = d.flt := rfl
@[simp] theorem Dev.emit_host (o : Output) : (d.emit o).host = d.host := rfl
@[simp] theorem Dev.emit_mbxS (o : Output) : (d.emit o).mbxS = d.mbxS := rfl
@[simp] theorem Dev.emit_mbxN (o : Output) : (d.emit o).mbxN = d.mbxN := rfl
@[simp] theorem Dev.emit_acc (o : Output) : (d.emit o).acc = d.acc := rfl
@[simp] theorem Dev.emit_cfg (o : Output) : (d.emit o).cfg = d.cfg := rfl
@[simp] theorem Dev.emit_boot (o : Output) : (d.emit o).boot = d.boot := rfl
@[simp] theorem Dev.emit_ports (o : Output) : (d.emit o).ports = d.ports := rfl
@[simp] theorem Dev.emit_lanes (o : Output) : (d.emit o).lanes = d.lanes := rfl
@[simp] theorem Dev.emit_mem (o : Output) : (d.emit o).mem = d.mem := rfl
@[simp] theorem Dev.emit_bist (o : Output) : (d.emit o).bist = d.bist := rfl
@[simp] theorem Dev.emit_age (o : Output) : (d.emit o).age = d.age := rfl
@[simp] theorem Dev.emit_pair (o : Output) : (d.emit o).pair = d.pair := rfl
@[simp] theorem Dev.emit_free (o : Output) : (d.emit o).free = d.free := rfl

/-! ### modSys -/

@[simp] theorem Dev.modSys_pins (g : SysSt → SysSt) : (d.modSys g).pins = d.pins := rfl
@[simp] theorem Dev.modSys_clk (g : SysSt → SysSt) : (d.modSys g).clk = d.clk := rfl
@[simp] theorem Dev.modSys_pwr (g : SysSt → SysSt) : (d.modSys g).pwr = d.pwr := rfl
@[simp] theorem Dev.modSys_avs (g : SysSt → SysSt) : (d.modSys g).avs = d.avs := rfl
@[simp] theorem Dev.modSys_dt (g : SysSt → SysSt) : (d.modSys g).dt = d.dt := rfl
@[simp] theorem Dev.modSys_raster (g : SysSt → SysSt) : (d.modSys g).raster = d.raster := rfl
@[simp] theorem Dev.modSys_hal (g : SysSt → SysSt) : (d.modSys g).hal = d.hal := rfl
@[simp] theorem Dev.modSys_flt (g : SysSt → SysSt) : (d.modSys g).flt = d.flt := rfl
@[simp] theorem Dev.modSys_host (g : SysSt → SysSt) : (d.modSys g).host = d.host := rfl
@[simp] theorem Dev.modSys_mbxS (g : SysSt → SysSt) : (d.modSys g).mbxS = d.mbxS := rfl
@[simp] theorem Dev.modSys_mbxN (g : SysSt → SysSt) : (d.modSys g).mbxN = d.mbxN := rfl
@[simp] theorem Dev.modSys_acc (g : SysSt → SysSt) : (d.modSys g).acc = d.acc := rfl
@[simp] theorem Dev.modSys_cfg (g : SysSt → SysSt) : (d.modSys g).cfg = d.cfg := rfl
@[simp] theorem Dev.modSys_boot (g : SysSt → SysSt) : (d.modSys g).boot = d.boot := rfl
@[simp] theorem Dev.modSys_ports (g : SysSt → SysSt) : (d.modSys g).ports = d.ports := rfl
@[simp] theorem Dev.modSys_lanes (g : SysSt → SysSt) : (d.modSys g).lanes = d.lanes := rfl
@[simp] theorem Dev.modSys_mem (g : SysSt → SysSt) : (d.modSys g).mem = d.mem := rfl
@[simp] theorem Dev.modSys_bist (g : SysSt → SysSt) : (d.modSys g).bist = d.bist := rfl
@[simp] theorem Dev.modSys_age (g : SysSt → SysSt) : (d.modSys g).age = d.age := rfl
@[simp] theorem Dev.modSys_pair (g : SysSt → SysSt) : (d.modSys g).pair = d.pair := rfl
@[simp] theorem Dev.modSys_out (g : SysSt → SysSt) : (d.modSys g).out = d.out := rfl
@[simp] theorem Dev.modSys_free (g : SysSt → SysSt) : (d.modSys g).free = d.free := rfl

/-! ### What an update reads back -/

@[simp] theorem Dev.port_setPort (p : Port) : (d.setPort n p).port n = p := by simp [Dev.setPort, Dev.port]
theorem Dev.port_setPort_ne (k : Fin 16) (h : n ≠ k) (p : Port) : (d.setPort n p).port k = d.port k := by
  have : n.val ≠ k.val := fun e => h (Fin.ext e)
  simp [Dev.setPort, Dev.port, this]
@[simp] theorem Dev.port_modPort (g : Port → Port) : (d.modPort n g).port n = g (d.port n) := by simp [Dev.modPort]
theorem Dev.port_modPort_ne (k : Fin 16) (h : n ≠ k) (g : Port → Port) : (d.modPort n g).port k = d.port k := by
  simp [Dev.modPort, Dev.port_setPort_ne d n k h]
@[simp] theorem Dev.lane_setLane (l : LaneSt) : (d.setLane m l).lane m = l := by simp [Dev.setLane, Dev.lane]
theorem Dev.lane_setLane_ne (k : Fin 20) (h : m ≠ k) (l : LaneSt) : (d.setLane m l).lane k = d.lane k := by
  have : m.val ≠ k.val := fun e => h (Fin.ext e)
  simp [Dev.setLane, Dev.lane, this]
@[simp] theorem Dev.lane_modLane (g : LaneSt → LaneSt) : (d.modLane m g).lane m = g (d.lane m) := by simp [Dev.modLane]
theorem Dev.lane_modLane_ne (k : Fin 20) (h : m ≠ k) (g : LaneSt → LaneSt) : (d.modLane m g).lane k = d.lane k := by
  simp [Dev.modLane, Dev.lane_setLane_ne d m k h]
@[simp] theorem Dev.fn_setFn (x : FnSt) : (d.setFn f x).fn f = x := by cases f <;> rfl
theorem Dev.fn_setFn_ne (k : Fn) (h : f ≠ k) (x : FnSt) : (d.setFn f x).fn k = d.fn k := by
  cases f <;> cases k <;> simp_all [Dev.setFn, Dev.fn]
@[simp] theorem Dev.fn_modFn (g : FnSt → FnSt) : (d.modFn f g).fn f = g (d.fn f) := by simp [Dev.modFn]

/-! ### Readers of fields that an update leaves alone -/

@[simp] theorem Dev.port_setLane' (l : LaneSt) (k : Fin 16) : (d.setLane m l).port k = d.port k := rfl
@[simp] theorem Dev.port_modLane' (g : LaneSt → LaneSt) (k : Fin 16) : (d.modLane m g).port k = d.port k := rfl
@[simp] theorem Dev.port_setFn' (x : FnSt) (k : Fin 16) : (d.setFn f x).port k = d.port k := by cases f <;> rfl
@[simp] theorem Dev.port_modFn' (g : FnSt → FnSt) (k : Fin 16) : (d.modFn f g).port k = d.port k := by cases f <;> rfl
@[simp] theorem Dev.port_setMem' (x : Fin 132) (y : MemSt) (k : Fin 16) : (d.setMem x y).port k = d.port k := rfl
@[simp] theorem Dev.port_emit' (o : Output) (k : Fin 16) : (d.emit o).port k = d.port k := rfl
@[simp] theorem Dev.port_modSys' (g : SysSt → SysSt) (k : Fin 16) : (d.modSys g).port k = d.port k := rfl
@[simp] theorem Dev.lane_setPort' (p : Port) (k : Fin 20) : (d.setPort n p).lane k = d.lane k := rfl
@[simp] theorem Dev.lane_modPort' (g : Port → Port) (k : Fin 20) : (d.modPort n g).lane k = d.lane k := rfl
@[simp] theorem Dev.lane_setFn' (x : FnSt) (k : Fin 20) : (d.setFn f x).lane k = d.lane k := by cases f <;> rfl
@[simp] theorem Dev.lane_modFn' (g : FnSt → FnSt) (k : Fin 20) : (d.modFn f g).lane k = d.lane k := by cases f <;> rfl
@[simp] theorem Dev.lane_setMem' (x : Fin 132) (y : MemSt) (k : Fin 20) : (d.setMem x y).lane k = d.lane k := rfl
@[simp] theorem Dev.lane_emit' (o : Output) (k : Fin 20) : (d.emit o).lane k = d.lane k := rfl
@[simp] theorem Dev.lane_modSys' (g : SysSt → SysSt) (k : Fin 20) : (d.modSys g).lane k = d.lane k := rfl
@[simp] theorem Dev.fn_setPort' (p : Port) (k : Fn) : (d.setPort n p).fn k = d.fn k := by cases k <;> rfl
@[simp] theorem Dev.fn_modPort' (g : Port → Port) (k : Fn) : (d.modPort n g).fn k = d.fn k := by cases k <;> rfl
@[simp] theorem Dev.fn_setLane' (l : LaneSt) (k : Fn) : (d.setLane m l).fn k = d.fn k := by cases k <;> rfl
@[simp] theorem Dev.fn_modLane' (g : LaneSt → LaneSt) (k : Fn) : (d.modLane m g).fn k = d.fn k := by cases k <;> rfl
@[simp] theorem Dev.fn_setMem' (x : Fin 132) (y : MemSt) (k : Fn) : (d.setMem x y).fn k = d.fn k := by cases k <;> rfl
@[simp] theorem Dev.fn_emit' (o : Output) (k : Fn) : (d.emit o).fn k = d.fn k := by cases k <;> rfl
@[simp] theorem Dev.fn_modSys' (g : SysSt → SysSt) (k : Fn) : (d.modSys g).fn k = d.fn k := by cases k <;> rfl
@[simp] theorem Dev.port_emit (o : Output) : (d.emit o).port n = d.port n := rfl

end Sys2Proof.Machine
end

