-- ==== Sys2Proof/Laws/Frame.lean ====
section
/-! SUPPORT. What the shared operations leave alone, and that every command ends in a safe state. -/
namespace Sys2Proof.Machine

/-- The block without the host port's rings, handles and messages. -/
def Dev.offHost (d : Dev) : Dev := { d with host := {}, out := [] }

/-- The block without what a port's state change can move. -/
def Dev.still (d : Dev) : Dev := { d with host := {}, out := [], ports := Vector.ofFn Port.reset, lanes := Vector.ofFn LaneSt.reset, flt := {}, hal := {} }

theorem Dev.still_of_offHost {d e : Dev} (h : e.offHost = d.offHost) : e.still = d.still := by
  have hc := congrArg Dev.still h
  exact hc

theorem Dev.eq_of_offHost {d e : Dev} (h : e.offHost = d.offHost) : e = { d with host := e.host, out := e.out } := by
  have := congrArg (fun x : Dev => { x with host := e.host, out := e.out }) h
  exact this

theorem foldl_keeps {α β γ : Type} (g : α → γ) (f : α → β → α) (hf : ∀ a b, g (f a b) = g a) (l : List β) (a : α) :
    g (l.foldl f a) = g a := by
  induction l generalizing a with
  | nil => rfl
  | cons b l ih => rw [List.foldl_cons, ih, hf]

/-! ### Operations on the host port -/

@[simp] theorem offHost_emit (d : Dev) (o : Output) : (d.emit o).offHost = d.offHost := rfl
@[simp] theorem offHost_setFn (d : Dev) (f : Fn) (x : FnSt) : (d.setFn f x).offHost = d.offHost := by cases f <;> rfl
@[simp] theorem offHost_modFn (d : Dev) (f : Fn) (g : FnSt → FnSt) : (d.modFn f g).offHost = d.offHost := by
  cases f <;> rfl
@[simp] theorem offHost_modOp (d : Dev) (h : W16) (g : Op → Op) : (modOp d h g).offHost = d.offHost := rfl
@[simp] theorem offHost_dropOp (d : Dev) (h : W16) : (dropOp d h).offHost = d.offHost := rfl

@[simp] theorem offHost_msix (d : Dev) (f : Fn) (v : Nat) : (msix d f v).offHost = d.offHost := by
  unfold msix; split
  · dsimp only; split <;> simp
  · rfl

@[simp] theorem offHost_eventTo (d : Dev) (f : Fn) (s : Stamp) (p : RPos) (a b : Nat) (l : List W8) (h : W16) (x y : Bool) :
    (eventTo d f s p a b l h x y).offHost = d.offHost := by
  unfold eventTo; dsimp only; split <;> simp

@[simp] theorem offHost_eventBoth (d : Dev) (a b : Nat) (l : List W8) : (eventBoth d a b l).offHost = d.offHost := by
  simp [eventBoth]

@[simp] theorem offHost_putCompletion (d : Dev) (f : Fn) (k j : Fin 16) (a b c : W16) (kind : Nat) (e g : W16) (r0 r1 : W32)
    (s : Stamp) : (putCompletion d f k j a b c kind e g r0 r1 s).offHost = d.offHost := by
  unfold putCompletion; dsimp only; split <;> simp

@[simp] theorem offHost_modSq (d : Dev) (f : Fn) (k : Fin 16) (g : SqRing → SqRing) : (modSq d f k g).offHost = d.offHost := by
  cases f <;> rfl
@[simp] theorem offHost_modCq (d : Dev) (f : Fn) (k : Fin 16) (g : CqRing → CqRing) : (modCq d f k g).offHost = d.offHost := by
  cases f <;> rfl
@[simp] theorem offHost_modEv (d : Dev) (f : Fn) (g : EvRing → EvRing) : (modEv d f g).offHost = d.offHost := by
  cases f <;> rfl
@[simp] theorem offHost_ringError (d : Dev) (a b c : Nat) (x : W64) : (ringError d a b c x).offHost = d.offHost := by
  simp [ringError]
@[simp] theorem offHost_stopSq (d : Dev) (f : Fn) (k : Fin 16) (c : Nat) (x : W64) : (stopSq d f k c x).offHost = d.offHost := by
  simp [stopSq]
@[simp] theorem offHost_stopCq (d : Dev) (f : Fn) (k : Fin 16) (c : Nat) : (stopCq d f k c).offHost = d.offHost := by
  simp [stopCq]
@[simp] theorem offHost_stopEv (d : Dev) (f : Fn) (c : Nat) : (stopEv d f c).offHost = d.offHost := by
  simp [stopEv]

theorem offHost_sqDoorbell (d : Dev) (f : Fn) (k : Fin 16) (v : W16) : (sqDoorbell f k v d).offHost = d.offHost := by
  unfold sqDoorbell; dsimp only; split
  · rfl
  · split
    · simp
    · split <;> simp

theorem offHost_cqDoorbell (d : Dev) (f : Fn) (k : Fin 16) (v : W16) : (cqDoorbell f k v d).offHost = d.offHost := by
  unfold cqDoorbell; dsimp only; split
  · rfl
  · split
    · simp
    · split <;> simp

theorem offHost_evDoorbell (d : Dev) (f : Fn) (v : W16) : (evDoorbell f v d).offHost = d.offHost := by
  unfold evDoorbell; dsimp only; split
  · rfl
  · split
    · simp
    · split <;> simp

theorem offHost_ringEnable (d : Dev) (f : Fn) (kind : RingKind) (k : Fin 16) (c : W32) :
    (ringEnable f kind k c d).offHost = d.offHost := by cases kind <;> simp [ringEnable]

theorem offHost_coalesceFire (d : Dev) (f : Fn) (k : Fin 16) : (coalesceFire f k d).offHost = d.offHost := by
  unfold coalesceFire; dsimp only; split <;> simp

theorem offHost_unmaskVector (d : Dev) (f : Fn) (v : Fin 64) : (unmaskVector f v d).offHost = d.offHost := by
  unfold unmaskVector; dsimp only; split <;> simp

/-! ### Operations on a port -/

theorem still_ite {c : Prop} [Decidable c] (a b d : Dev) (ha : a.still = d.still) (hb : b.still = d.still) :
    (if c then a else b).still = d.still := by split <;> assumption

@[simp] theorem still_emit (d : Dev) (o : Output) : (d.emit o).still = d.still := rfl
@[simp] theorem still_setPort (d : Dev) (n : Fin 16) (p : Port) : (d.setPort n p).still = d.still := rfl
@[simp] theorem still_modPort (d : Dev) (n : Fin 16) (g : Port → Port) : (d.modPort n g).still = d.still := rfl
@[simp] theorem still_setLane (d : Dev) (m : Fin 20) (l : LaneSt) : (d.setLane m l).still = d.still := rfl
@[simp] theorem still_modLane (d : Dev) (m : Fin 20) (g : LaneSt → LaneSt) : (d.modLane m g).still = d.still := rfl
@[simp] theorem still_setFn (d : Dev) (f : Fn) (x : FnSt) : (d.setFn f x).still = d.still := by cases f <;> rfl
@[simp] theorem still_msix (d : Dev) (f : Fn) (v : Nat) : (msix d f v).still = d.still := Dev.still_of_offHost (by simp)
@[simp] theorem still_eventTo (d : Dev) (f : Fn) (s : Stamp) (p : RPos) (a b : Nat) (l : List W8) (h : W16) (x y : Bool) :
    (eventTo d f s p a b l h x y).still = d.still := Dev.still_of_offHost (by simp)
@[simp] theorem still_modFn (d : Dev) (f : Fn) (g : FnSt → FnSt) : (d.modFn f g).still = d.still := by cases f <;> rfl
@[simp] theorem still_modOp (d : Dev) (h : W16) (g : Op → Op) : (modOp d h g).still = d.still := rfl
@[simp] theorem still_queueCompletion (d : Dev) (n : Fin 16) : (queueCompletion d n).still = d.still := rfl

@[simp] theorem still_endWith (d : Dev) (o : Op) (st de : W16) (r0 r1 : W32) : (endWith o st de r0 r1 d).still = d.still := by
  have h : ∀ e : Dev, e.still = d.still → (match o.controller with
      | some n => if e.sys.mgrUp then e else queueCompletion e n
      | none => e).still = d.still := by
    intro e he
    cases o.controller
    · exact he
    · exact still_ite _ _ _ he he
  unfold endWith
  exact still_ite _ _ _ ((still_modFn _ _ _).trans (h _ rfl)) (h _ rfl)

@[simp] theorem still_endOps (d : Dev) (p : Op → Bool) (st de : W16) (r0 r1 : W32) :
    (endOps d p st de r0 r1).still = d.still :=
  foldl_keeps Dev.still _ (fun _ _ => by simp) _ _

@[simp] theorem still_dropEntries (d : Dev) (p : CalEntry → Bool) : (dropEntries d p).still = d.still := rfl
@[simp] theorem still_placeEntry (d : Dev) (e : CalEntry) : (placeEntry d e).still = d.still := rfl
@[simp] theorem still_dropStale (d : Dev) (n : Fin 16) : (dropStale d n).still = d.still := rfl
@[simp] theorem still_countUnblanked (d : Dev) : (countUnblanked d).still = d.still := rfl

@[simp] theorem still_atticAt (d : Dev) (n : Fin 16) (s : Stamp) (p : RPos) (t : Nat) (l : List W8) :
    (atticAt d n s p t l).still = d.still := by
  unfold atticAt; dsimp only; split
  · rfl
  · split <;> rfl

@[simp] theorem still_reportState (d : Dev) (n : Fin 16) (o : PortSt) : (reportState d n o).still = d.still := by
  simp [reportState]

@[simp] theorem still_endSwitch (d : Dev) (n : Fin 16) (st : PortSt) : (endSwitch d n st).still = d.still := by
  unfold endSwitch; split
  · dsimp only; split <;> simp
  · rfl

/-! ### What a lane's transmitter sends -/

/-- What sending on lane m leaves alone: all but the lanes, the output and the LIMIT of the lane's own port. -/
def Dev.wireKept (m : Fin 20) (d e : Dev) : Prop :=
  e.still = d.still ∧ (e.lane m).port = (d.lane m).port ∧ (∀ k, (e.port k).link = (d.port k).link) ∧
  ∀ k, (d.lane m).port ≠ some k → e.port k = d.port k

theorem wireKept_refl (m : Fin 20) (d : Dev) : Dev.wireKept m d d := ⟨rfl, rfl, fun _ => rfl, fun _ _ => rfl⟩

theorem wireKept_trans {m : Fin 20} {d e g : Dev} (h : Dev.wireKept m d e) (i : Dev.wireKept m e g) : Dev.wireKept m d g :=
  ⟨i.1.trans h.1, i.2.1.trans h.2.1, fun k => (i.2.2.1 k).trans (h.2.2.1 k),
    fun k hk => (i.2.2.2 k (by rw [h.2.1]; exact hk)).trans (h.2.2.2 k hk)⟩

theorem wireKept_emit (m : Fin 20) (d : Dev) (o : Output) : Dev.wireKept m d (d.emit o) := ⟨rfl, rfl, fun _ => rfl, fun _ _ => rfl⟩

theorem wireKept_setLane (m : Fin 20) (d : Dev) (l : LaneSt) (h : l.port = (d.lane m).port) : Dev.wireKept m d (d.setLane m l) :=
  ⟨rfl, by rw [Dev.lane_setLane]; exact h, fun _ => rfl, fun _ _ => rfl⟩

theorem wireKept_emitBits (m k : Fin 20) (d : Dev) (b : List Bool) : Dev.wireKept m d (emitBits d k b) := wireKept_emit m d _

theorem fillUp_port (l : LaneSt) : l.fillUp.2.port = l.port := by
  unfold LaneSt.fillUp
  rfl
theorem putBlock_port (l : LaneSt) (b : BitVec 65) : (l.putBlock b).2.port = l.port := by
  unfold LaneSt.putBlock
  exact fillUp_port l
theorem putMarker_port (l : LaneSt) (w : BitVec 80) : (l.putMarker w).2.port = l.port := by
  unfold LaneSt.putMarker
  exact fillUp_port l

theorem wireKept_takeMarker (d : Dev) (m : Fin 20) : Dev.wireKept m d (takeMarker d m).2 := by
  unfold takeMarker
  dsimp only
  generalize hd : d.setLane m _ = e
  have he : Dev.wireKept m d e := by rw [← hd]; exact wireKept_setLane m d _ rfl
  by_cases hl : (laneTx e m == .loop) = true
  · rw [if_pos hl]; exact he
  · rw [if_neg hl]
    cases hp : (d.lane m).port with
    | none => exact he
    | some n =>
      refine ⟨he.1, he.2.1, fun k => ?_, fun k hk => ?_⟩
      · refine Eq.trans ?_ (he.2.2.1 k)
        by_cases hk : n = k
        · subst hk; simp
        · exact congrArg Port.link (Dev.port_modPort_ne e n k hk _)
      · refine Eq.trans ?_ (he.2.2.2 k hk)
        refine Dev.port_modPort_ne e n k ?_ _
        rintro rfl
        exact hk hp

theorem wireKept_markerOut (d : Dev) (m : Fin 20) : Dev.wireKept m d (markerOut d m).2 := by
  unfold markerOut
  exact wireKept_trans (wireKept_trans (wireKept_takeMarker d m) (wireKept_setLane m _ _ (putMarker_port _ _))) (wireKept_emit _ _ _)

theorem wireKept_blockOut (d : Dev) (m : Fin 20) (b : BitVec 65) : Dev.wireKept m d (blockOut d m b).2 := by
  unfold blockOut
  dsimp only
  have hx : Dev.wireKept m d (if 2048 ≤ (d.lane m).sent then markerOut d m else ([], d)).2 := by
    split
    · exact wireKept_markerOut d m
    · exact wireKept_refl m d
  generalize (if 2048 ≤ (d.lane m).sent then markerOut d m else ([], d)) = x at hx ⊢
  by_cases c : (x.2.lane m).slack + (x.2.lane m).tolerance < 0
  · rw [if_pos c]; exact wireKept_trans hx (wireKept_setLane m _ _ rfl)
  · rw [if_neg c]; exact wireKept_trans hx (wireKept_setLane m _ _ (putBlock_port _ _))

theorem wireKept_sendByham (d : Dev) (m : Fin 20) (bs : List (BitVec 65)) : Dev.wireKept m d (sendByham d m bs) := by
  have h : ∀ (x : List Bool × Dev), Dev.wireKept m d x.2 →
      Dev.wireKept m d (bs.foldl (fun x b => ((x.1 ++ (blockOut x.2 m b).1, (blockOut x.2 m b).2) : List Bool × Dev)) x).2 := by
    induction bs with
    | nil => exact fun _ h => h
    | cons b bs ih => exact fun x h => ih _ (wireKept_trans h (wireKept_blockOut _ _ _))
  unfold sendByham
  exact wireKept_trans (h _ (wireKept_refl m d)) (wireKept_emitBits _ _ _ _)

theorem wireKept_sendBlocks (d : Dev) (m : Fin 20) (bs : List (BitVec 65)) : Dev.wireKept m d (sendBlocks d m bs) := by
  unfold sendBlocks
  dsimp only
  split
  · exact wireKept_sendByham d m bs
  · split
    · unfold send66
      dsimp only
      refine wireKept_trans ?_ (wireKept_emitBits _ _ _ _)
      exact wireKept_setLane m d _ rfl
    · split
      · unfold sendGroups
        dsimp only
        refine wireKept_trans ?_ (wireKept_emitBits _ _ _ _)
        exact wireKept_setLane m d _ rfl
      · exact wireKept_refl m d

theorem wireKept_wakeLane (d : Dev) (m : Fin 20) : Dev.wireKept m d (wakeLane d m) := by
  unfold wakeLane
  split
  · exact wireKept_refl m d
  · exact wireKept_refl m d
  · exact wireKept_emit _ _ _
  · dsimp only
    split
    · exact wireKept_trans (wireKept_emit _ _ _) (wireKept_trans (wireKept_markerOut _ _) (wireKept_emitBits _ _ _ _))
    · exact wireKept_trans (wireKept_emit _ _ _) (wireKept_sendBlocks _ _ _)

@[simp] theorem still_wakeLane (d : Dev) (m : Fin 20) : (wakeLane d m).still = d.still := (wireKept_wakeLane d m).1

@[simp] theorem still_endOam (d : Dev) (n : Fin 16) (o st : PortSt) : (endOam d n o st).still = d.still := by
  unfold endOam; dsimp only
  repeat' first
    | rfl
    | rw [still_modPort]
    | rw [still_endOps]
    | refine still_ite _ _ _ ?_ ?_

@[simp] theorem still_endTdr (d : Dev) (n : Fin 16) (o st : PortSt) : (endTdr d n o st).still = d.still := by
  unfold endTdr; exact still_ite _ _ _ (still_endOps ..) rfl

@[simp] theorem still_endPortOps (d : Dev) (n : Fin 16) (o st : PortSt) : (endPortOps d n o st).still = d.still := by
  unfold endPortOps; dsimp only
  cases st <;> simp

@[simp] theorem still_endLoopback (d : Dev) (n : Fin 16) : (endLoopback d n).still = d.still := rfl
@[simp] theorem still_endRamps (d : Dev) (n : Fin 16) : (endRamps d n).still = d.still := rfl
@[simp] theorem still_endPmaTest (d : Dev) (n : Fin 16) : (endPmaTest d n).still = d.still := by
  unfold endPmaTest; dsimp only; exact still_ite _ _ _ rfl rfl

/-- But for a port that retires, whose pads latch, entering a state changes the port alone. -/
theorem still_enterSt (d : Dev) (n : Fin 16) (st : PortSt) (h : (st == .retired) = false) :
    (enterSt d n st).still = d.still := by
  unfold enterSt; simp only [h, Bool.false_eq_true, if_false]; split
  · rfl
  · rw [still_reportState]
    repeat' first
      | rfl
      | rw [still_dropEntries]
      | rw [still_wakeLane]
      | rw [still_endPortOps]
      | contradiction
      | rw [still_endLoopback]
      | rw [still_endPmaTest]
      | rw [still_endRamps]
      | rw [still_dropStale]
      | rw [still_endSwitch]
      | refine still_ite _ _ _ ?_ ?_

@[simp] theorem still_restPort (d : Dev) (n : Fin 16) : (restPort d n).still = d.still := by
  unfold restPort; split
  · rfl
  · exact still_enterSt d n .down rfl

@[simp] theorem still_settlePorts (d : Dev) : (settlePorts d).still = d.still := by
  unfold settlePorts; split
  · exact foldl_keeps Dev.still _ (fun _ _ => by simp) _ _
  · rfl

/-! ### The other ports -/

@[simp] theorem ports_of_offHost {d e : Dev} (h : e.offHost = d.offHost) (k : Fin 16) : e.port k = d.port k := by
  have := congrArg (fun x : Dev => x.port k) h
  exact this

@[simp] theorem port_msix (d : Dev) (f : Fn) (v : Nat) (k : Fin 16) : (msix d f v).port k = d.port k := ports_of_offHost (by simp) k
@[simp] theorem port_eventTo (d : Dev) (f : Fn) (s : Stamp) (p : RPos) (a b : Nat) (l : List W8) (h : W16) (x y : Bool)
    (k : Fin 16) : (eventTo d f s p a b l h x y).port k = d.port k := ports_of_offHost (by simp) k
@[simp] theorem port_dropEntries (d : Dev) (p : CalEntry → Bool) (k : Fin 16) : (dropEntries d p).port k = d.port k := rfl
@[simp] theorem port_dropStale (d : Dev) (n k : Fin 16) : (dropStale d n).port k = d.port k := rfl
@[simp] theorem port_countUnblanked (d : Dev) (k : Fin 16) : (countUnblanked d).port k = d.port k := rfl
@[simp] theorem port_endLoopback (d : Dev) (n k : Fin 16) : (endLoopback d n).port k = d.port k := rfl


/-- A port's link state, and every other port, as an operation on port n leaves them. -/
def Dev.linkKept (n : Fin 16) (d e : Dev) : Prop := (e.port n).link.st = (d.port n).link.st ∧ ∀ k, n ≠ k → e.port k = d.port k

theorem linkKept_refl (n : Fin 16) (d : Dev) : Dev.linkKept n d d := ⟨rfl, fun _ _ => rfl⟩
theorem linkKept_trans {n : Fin 16} {d e g : Dev} (h : Dev.linkKept n d e) (i : Dev.linkKept n e g) : Dev.linkKept n d g :=
  ⟨i.1.trans h.1, fun k hk => (i.2 k hk).trans (h.2 k hk)⟩
theorem linkKept_of_ports {n : Fin 16} {d e : Dev} (h : ∀ k, e.port k = d.port k) : Dev.linkKept n d e :=
  ⟨by rw [h], fun k _ => h k⟩
theorem linkKept_ite {c : Prop} [Decidable c] {n : Fin 16} {d a b : Dev} (ha : Dev.linkKept n d a) (hb : Dev.linkKept n d b) :
    Dev.linkKept n d (if c then a else b) := by split <;> assumption
theorem linkKept_then {c : Prop} [Decidable c] {n : Fin 16} {d x a b : Dev} (ha : Dev.linkKept n x a) (hb : Dev.linkKept n x b)
    (h : Dev.linkKept n d x) : Dev.linkKept n d (if c then a else b) := linkKept_trans h (linkKept_ite ha hb)
theorem linkKept_modPort {n : Fin 16} (d : Dev) (g : Port → Port) (h : ∀ p, (g p).link.st = p.link.st) :
    Dev.linkKept n d (d.modPort n g) := ⟨by simp [h], fun k hk => Dev.port_modPort_ne d n k hk g⟩

theorem linkKept_atticAt (d : Dev) (n : Fin 16) (s : Stamp) (p : RPos) (t : Nat) (l : List W8) :
    Dev.linkKept n d (atticAt d n s p t l) := by
  unfold atticAt; dsimp only
  refine linkKept_ite (linkKept_refl n d) (linkKept_ite ?_ ?_)
  · exact ⟨by simp, fun k hk => Dev.port_setPort_ne d n k hk _⟩
  · exact ⟨by simp, fun k hk => by rw [Dev.port_emit]; exact Dev.port_setPort_ne d n k hk _⟩

theorem linkKept_reportState (d : Dev) (n : Fin 16) (o : PortSt) : Dev.linkKept n d (reportState d n o) := by
  unfold reportState
  refine linkKept_trans (linkKept_of_ports fun k => ?_) (linkKept_atticAt _ _ _ _ _ _)
  rw [port_eventTo, port_eventTo]

theorem linkKept_endSwitch (d : Dev) (n : Fin 16) (st : PortSt) : Dev.linkKept n d (endSwitch d n st) := by
  unfold endSwitch; split
  · have h := linkKept_modPort (n := n) d (fun p => { p with line := { p.line with dsEnd := none } }) fun _ => rfl
    exact linkKept_ite (linkKept_trans h (linkKept_of_ports (port_countUnblanked _))) h
  · exact linkKept_refl n d

theorem linkKept_endWith (d : Dev) (n : Fin 16) (o : Op) (st de : W16) (r0 r1 : W32) (h : o.controller = none ∨ o.controller = some n) :
    Dev.linkKept n d (endWith o st de r0 r1 d) := by
  have fn : ∀ (e : Dev) (g : FnSt → FnSt), Dev.linkKept n e (e.modFn o.fn g) := fun e g =>
    linkKept_of_ports fun _ => ports_of_offHost (offHost_modFn e o.fn g) _
  have wait : ∀ e : Dev, Dev.linkKept n e (match o.controller with
      | some n => if e.sys.mgrUp then e else queueCompletion e n
      | none => e) := by
    intro e
    rcases h with h | h
    · rw [h]; exact linkKept_refl n _
    · rw [h]; exact linkKept_ite (linkKept_refl n _) (linkKept_modPort _ _ fun _ => rfl)
  have op : Dev.linkKept n d (modOp d o.handle fun o => { o with
      final := some { status := st, detail := de, r0 := r0, r1 := r1, stamp := d.stamp } }) := linkKept_of_ports fun _ => rfl
  unfold endWith
  exact linkKept_then (fn _ _) (linkKept_refl n _) (linkKept_trans op (wait _))

theorem linkKept_endOps (d : Dev) (n : Fin 16) (p : Op → Bool) (st de : W16) (r0 r1 : W32)
    (h : ∀ o, p o = true → o.controller = none ∨ o.controller = some n) : Dev.linkKept n d (endOps d p st de r0 r1) := by
  have key : ∀ (l : List Op) (e : Dev), (∀ o ∈ l, p o = true) →
      Dev.linkKept n e (l.foldl (fun d o => endWith o st de r0 r1 d) e) := by
    intro l
    induction l with
    | nil => exact fun e _ => linkKept_refl n e
    | cons o l ih =>
      intro e ho
      rw [List.foldl_cons]
      exact linkKept_trans (linkKept_endWith e n o st de r0 r1 (h o (ho o (List.mem_cons_self ..))))
        (ih _ fun x hx => ho x (List.mem_cons_of_mem _ hx))
  refine key _ d fun o ho => ?_
  have := (List.mem_filter.mp ho).2
  simp only [Bool.and_eq_true] at this
  exact this.2

theorem portOf_ofNat (n : Fin 16) : portOf (BitVec.ofNat 8 n.val) = some n := by revert n; decide

/-- What a port's own operations are run by: that port's controller, or the manager. -/
theorem controller_oamSend (n : Fin 16) (o : Op) (h : (o.isPort n && match o.cmd with | .oamSend .. => true | _ => false) = true) :
    o.controller = none ∨ o.controller = some n := by
  simp only [Bool.and_eq_true] at h
  obtain ⟨h1, h2⟩ := h
  split at h2
  · rename_i p _ _ _ hc
    have hp : p = BitVec.ofNat 8 n.val := by simpa [Op.isPort, Op.portCmd, hc] using h1
    rw [Op.controller, hc]
    simp only
    split
    · exact .inr (by rw [hp]; exact portOf_ofNat n)
    · exact .inl rfl
  · cases h2

theorem controller_diagTdr (n : Fin 16) (o : Op) (h : (o.isPort n && match o.cmd with | .diagTdr _ => true | _ => false) = true) :
    o.controller = none ∨ o.controller = some n := by
  simp only [Bool.and_eq_true] at h
  obtain ⟨h1, h2⟩ := h
  split at h2
  · rename_i p hc
    have hp : p = BitVec.ofNat 8 n.val := by simpa [Op.isPort, Op.portCmd, hc] using h1
    rw [Op.controller, hc]
    simp only
    split
    · exact .inr (by rw [hp]; exact portOf_ofNat n)
    · exact .inl rfl
  · cases h2

theorem linkKept_endOam (d : Dev) (n : Fin 16) (o st : PortSt) : Dev.linkKept n d (endOam d n o st) := by
  unfold endOam
  exact linkKept_then (linkKept_refl n _) (linkKept_modPort _ _ fun _ => rfl) (linkKept_ite
    (linkKept_trans (linkKept_endOps _ _ _ _ _ _ _ (controller_oamSend n)) (linkKept_modPort _ _ fun _ => rfl))
    (linkKept_refl n d))

theorem linkKept_endTdr (d : Dev) (n : Fin 16) (o st : PortSt) : Dev.linkKept n d (endTdr d n o st) := by
  unfold endTdr
  exact linkKept_ite (linkKept_endOps _ _ _ _ _ _ _ (controller_diagTdr n)) (linkKept_refl n d)

theorem linkKept_endPortOps (d : Dev) (n : Fin 16) (o st : PortSt) : Dev.linkKept n d (endPortOps d n o st) := by
  have key := linkKept_trans (linkKept_endOam d n o st) (linkKept_endTdr (endOam d n o st) n o st)
  unfold endPortOps
  cases st
  all_goals first | exact key | skip
  all_goals
    refine linkKept_trans key (linkKept_endOps _ _ _ _ _ _ _ fun o ho => ?_)
    simp only [Bool.and_eq_true] at ho
    obtain ⟨_, h2⟩ := ho
    split at h2
    · rename_i hc
      exact .inl (by rw [Op.controller, hc])
    · cases h2

theorem linkKept_endRamps (d : Dev) (n : Fin 16) : Dev.linkKept n d (endRamps d n) := linkKept_modPort _ _ fun _ => rfl

theorem linkKept_endPmaTest (d : Dev) (n : Fin 16) : Dev.linkKept n d (endPmaTest d n) := by
  unfold endPmaTest; dsimp only
  refine linkKept_ite ?_ (linkKept_refl n d)
  refine linkKept_trans ?_ (linkKept_of_ports fun _ => Dev.port_emit ..)
  exact linkKept_modPort d _ fun _ => rfl

theorem linkKept_retireOff (d : Dev) (n : Fin 16) : Dev.linkKept n d (retireOff d n) := by
  unfold retireOff; dsimp only
  refine linkKept_trans (linkKept_trans (e := { d with
      pwr := { d.pwr with padPort := setBit d.pwr.padPort n.val true },
      flt := { d.flt with port := d.flt.port.set n.val { d.flt.port[n.val] with hwLive := 0 } } })
    (linkKept_of_ports fun _ => rfl) ?_) (linkKept_of_ports (port_dropEntries _ _))
  exact linkKept_modPort _ _ fun _ => rfl

theorem linkKept_wakeOwn (d : Dev) (n : Fin 16) (c : Bool) :
    Dev.linkKept n d (if c && (d.lane (d.port n).lane).port == some n then wakeLane d (d.port n).lane else d) := by
  split
  · rename_i h
    simp only [Bool.and_eq_true, beq_iff_eq] at h
    have w := wireKept_wakeLane d (d.port n).lane
    exact ⟨congrArg LinkSt.st (w.2.2.1 n), fun k hk => w.2.2.2 k (by rw [h.2]; simpa using hk)⟩
  · exact linkKept_refl n d

theorem noteGate_st (d : Dev) (n : Fin 16) (p : Port) : (noteGate d n p).link.st = p.link.st := by
  unfold noteGate; dsimp only
  cases (match gateOf d d.sys.mode with | some g => !bit g n.val | none => false) && portStops (d.port n) && !portStops p <;> rfl

/-- What a port entering a state does to the ports: it alone moves (R36, R38). -/
theorem enterSt_ports (d : Dev) (n : Fin 16) (st : PortSt) :
    ((enterSt d n st).port n).link.st = st ∧ ∀ k, n ≠ k → (enterSt d n st).port k = d.port k := by
  by_cases h : ((d.port n).link.st == st) = true
  · have e : enterSt d n st = d := if_pos h
    rw [e]
    exact ⟨by simpa using h, fun _ _ => rfl⟩
  · have base : Dev.linkKept n (d.modPort n fun p =>
        noteGate d n (noteReef d (d.port n).link.st (upClock d.dt.dt (leaveSt (d.port n).link.st st p)))) (enterSt d n st) := by
      unfold enterSt
      dsimp only
      rw [if_neg (by assumption)]
      refine linkKept_trans ?_ (linkKept_reportState _ n _)
      refine linkKept_then (linkKept_refl n _) (linkKept_of_ports (port_dropEntries _ _)) ?_
      refine linkKept_trans ?_ (linkKept_wakeOwn _ n _)
      refine linkKept_trans ?_ (linkKept_endPortOps _ n (d.port n).link.st st)
      refine linkKept_then (linkKept_retireOff _ n) (linkKept_refl n _) ?_
      refine linkKept_then (linkKept_trans (linkKept_of_ports (port_endLoopback _ n)) (linkKept_endPmaTest _ n)) (linkKept_refl n _) ?_
      refine linkKept_then (linkKept_refl n _) (linkKept_of_ports (port_dropStale _ n)) ?_
      refine linkKept_trans ?_ (linkKept_endSwitch _ n st)
      exact linkKept_then (linkKept_endRamps _ n) (linkKept_refl n _) (linkKept_refl n _)
    refine ⟨base.1.trans (by rw [Dev.port_modPort, noteGate_st]; rfl), fun k hk => (base.2 k hk).trans (Dev.port_modPort_ne d n k hk _)⟩

/-! ### Settling -/

theorem restPort_rests (d : Dev) (n : Fin 16) : portResting ((restPort d n).port n).link.st = true := by
  unfold restPort; split
  · assumption
  · rw [(enterSt_ports d n .down).1]; rfl

theorem restPort_keeps (d : Dev) (n k : Fin 16) (h : portResting (d.port k).link.st = true) :
    portResting ((restPort d n).port k).link.st = true := by
  by_cases e : n = k
  · subst e; exact restPort_rests d n
  · unfold restPort; split
    · exact h
    · rw [(enterSt_ports d n .down).2 k e]; exact h

theorem foldl_restPort (l : List (Fin 16)) (d : Dev) (k : Fin 16) (h : k ∈ l ∨ portResting (d.port k).link.st = true) :
    portResting ((l.foldl restPort d).port k).link.st = true := by
  induction l generalizing d with
  | nil => simpa using h
  | cons n l ih =>
    rw [List.foldl_cons]
    refine ih _ ?_
    rcases h with h | h
    · rcases List.mem_cons.mp h with rfl | h
      · exact .inr (restPort_rests d k)
      · exact .inl h
    · exact .inr (restPort_keeps d n k h)

theorem sys_of_still {d e : Dev} (h : e.still = d.still) : e.sys = d.sys := by
  change e.still.sys = d.still.sys
  rw [h]

theorem settlePorts_portsRest (d : Dev) : (settlePorts d).portsRest = true := by
  have hs : (settlePorts d).sys = d.sys := sys_of_still (still_settlePorts d)
  unfold Dev.portsRest
  rw [hs]
  cases hm : forcesDown d.sys.mode
  · rfl
  · simp only [Bool.not_true, Bool.false_or, List.all_eq_true]
    intro k _
    have he : settlePorts d = allPorts.foldl restPort d := if_pos hm
    rw [he]
    exact foldl_restPort allPorts d k (.inl (List.mem_finRange k))

theorem pinsRight_offHost (d : Dev) : d.offHost.pinsRight = d.pinsRight := rfl
theorem portsRest_offHost (d : Dev) : d.offHost.portsRest = d.portsRest := rfl

theorem setPins_pinsRight (d : Dev) : (setPins d).pinsRight = true := by
  have hf : faultNLevel (setPins d) = faultNLevel d := by
    have h : ∀ e : Dev, e.sys.mode = d.sys.mode → e.flt = d.flt → e.pins.faultN = faultNLevel d → faultNLevel e = faultNLevel d := by
      intro e h1 h2 h3
      unfold faultNLevel fnLevel at *
      rw [h1, h2, h3]
      cases d.sys.mode <;> rfl
    exact h _ rfl rfl rfl
  unfold Dev.pinsRight
  rw [hf]
  unfold setPins
  simp only [beq_self_eq_true, Bool.true_and]
  generalize decide (fld d.hal.fsyncCfg 15 14 < 2) = low
  cases d.hal.fsyncHigh <;> cases fsyncMode d.sys.mode <;> cases d.raster.set <;> cases low <;> rfl

theorem settlePins_offHost (d : Dev) : (settlePins d).offHost = (setPins d).offHost := by
  unfold settlePins; dsimp only; split
  · rw [offHost_msix]
  · rfl

theorem settlePins_pinsRight (d : Dev) : (settlePins d).pinsRight = true := by
  rw [← pinsRight_offHost, settlePins_offHost, pinsRight_offHost]
  exact setPins_pinsRight d

theorem settle_safe (d : Dev) : (settle d).portsRest = true ∧ (settle d).pinsRight = true := by
  refine ⟨?_, settlePins_pinsRight _⟩
  have h := settlePorts_portsRest d
  have e := settlePins_offHost (settlePorts d)
  unfold settle
  rw [← portsRest_offHost, e, portsRest_offHost]
  exact h

/-- In a safe state there is nothing to settle. -/
theorem settle_of_safe (d : Dev) (hp : d.portsRest = true) (hr : d.pinsRight = true) : settle d = d := by
  have h1 : settlePorts d = d := by
    unfold settlePorts
    split
    · rename_i hm
      unfold Dev.portsRest at hp
      rw [hm] at hp
      simp only [Bool.not_true, Bool.false_or, List.all_eq_true] at hp
      have : ∀ l : List (Fin 16), l.foldl restPort d = d := by
        intro l
        induction l with
        | nil => rfl
        | cons n l ih =>
          rw [List.foldl_cons]
          have : restPort d n = d := by unfold restPort; rw [if_pos (hp n (List.mem_finRange n))]
          rw [this, ih]
      exact this allPorts
    · rfl
  unfold settle
  rw [h1]
  unfold Dev.pinsRight at hr
  simp only [Bool.and_eq_true, beq_iff_eq, Bool.or_eq_true, Bool.not_eq_true'] at hr
  obtain ⟨⟨⟨hf, hs⟩, hx⟩, hy⟩ := hr
  have hz : (d.hal.fsyncHigh && fsyncMode d.sys.mode && d.raster.set && decide (fld d.hal.fsyncCfg 15 14 < 2)) = d.hal.fsyncHigh := by
    rw [← hx]
    rcases hy with hy | ⟨⟨h1, h2⟩, h3⟩
    · rw [hy]; rfl
    · rw [h1, h2, h3]; simp
  have he : setPins d = d := by
    unfold setPins
    rw [hz, ← hf, ← hs]
    have h : ({ d.pins with fsyncOut := d.hal.fsyncHigh } : Pins) = d.pins := by rw [← hx]
    exact congrArg (fun x : Pins => { d with pins := x }) h
  unfold settlePins
  rw [he]
  simp

theorem onDev_next (s : State) (f : Dev → Dev) : onDev s f = .next { s with dev := settle (f s.dev) } := rfl

theorem onLive_next (s : State) (f : Dev → Dev) (h : powered s.dev = true) :
    onLive s f = .next { s with dev := settle (f s.dev) } := by simp [onLive, onDev, h]

theorem onClocks_next (s : State) (f : Dev → Dev) (h : clocked s.dev = true) :
    onClocks s f = .next { s with dev := settle (f s.dev) } := by simp [onClocks, onDev, h]

theorem onLiveIf_next (s : State) (f : Dev → Dev) (ok : Bool) (h : ok = true) : onLiveIf ok s f = onLive s f := by
  simp [onLiveIf, h]

end Sys2Proof.Machine
end

