-- ==== Sys2Proof/Laws/Settle.lean ====
section
/-! SUPPORT. What the end of a command leaves alone, and what an occurrence of a fault leaves alone. -/
namespace Sys2Proof.Machine

/-! ### The end of a command -/

theorem still_setPins (d : Dev) : (setPins d).still = { d.still with pins := (setPins d).pins } := rfl

/-- The block without its pins and without what a port's state change can move. -/
def Dev.core (d : Dev) : Dev := { d.still with pins := {} }

theorem core_settlePins (d : Dev) : (settlePins d).core = d.core := by
  have h : (settlePins d).still = (setPins d).still := Dev.still_of_offHost (settlePins_offHost d)
  unfold Dev.core
  rw [h]
  rfl

theorem core_settle (d : Dev) : (settle d).core = d.core := by
  unfold settle
  rw [core_settlePins]
  unfold Dev.core
  rw [still_settlePorts]

@[simp] theorem settle_sys (d : Dev) : (settle d).sys = d.sys := by
  change (settle d).core.sys = d.core.sys; rw [core_settle]
@[simp] theorem settle_clk (d : Dev) : (settle d).clk = d.clk := by
  change (settle d).core.clk = d.core.clk; rw [core_settle]
@[simp] theorem settle_pwr (d : Dev) : (settle d).pwr = d.pwr := by
  change (settle d).core.pwr = d.core.pwr; rw [core_settle]
@[simp] theorem settle_avs (d : Dev) : (settle d).avs = d.avs := by
  change (settle d).core.avs = d.core.avs; rw [core_settle]
@[simp] theorem settle_dt (d : Dev) : (settle d).dt = d.dt := by
  change (settle d).core.dt = d.core.dt; rw [core_settle]
@[simp] theorem settle_raster (d : Dev) : (settle d).raster = d.raster := by
  change (settle d).core.raster = d.core.raster; rw [core_settle]
@[simp] theorem settle_mbxS (d : Dev) : (settle d).mbxS = d.mbxS := by
  change (settle d).core.mbxS = d.core.mbxS; rw [core_settle]
@[simp] theorem settle_mbxN (d : Dev) : (settle d).mbxN = d.mbxN := by
  change (settle d).core.mbxN = d.core.mbxN; rw [core_settle]
@[simp] theorem settle_acc (d : Dev) : (settle d).acc = d.acc := by
  change (settle d).core.acc = d.core.acc; rw [core_settle]
@[simp] theorem settle_cfg (d : Dev) : (settle d).cfg = d.cfg := by
  change (settle d).core.cfg = d.core.cfg; rw [core_settle]
@[simp] theorem settle_boot (d : Dev) : (settle d).boot = d.boot := by
  change (settle d).core.boot = d.core.boot; rw [core_settle]
@[simp] theorem settle_mem (d : Dev) : (settle d).mem = d.mem := by
  change (settle d).core.mem = d.core.mem; rw [core_settle]
@[simp] theorem settle_bist (d : Dev) : (settle d).bist = d.bist := by
  change (settle d).core.bist = d.core.bist; rw [core_settle]
@[simp] theorem settle_age (d : Dev) : (settle d).age = d.age := by
  change (settle d).core.age = d.core.age; rw [core_settle]
@[simp] theorem settle_pair (d : Dev) : (settle d).pair = d.pair := by
  change (settle d).core.pair = d.core.pair; rw [core_settle]
@[simp] theorem settle_free (d : Dev) : (settle d).free = d.free := by
  change (settle d).core.free = d.core.free; rw [core_settle]

theorem settlePins_ports (d : Dev) : (settlePins d).ports = d.ports := by
  have h := congrArg (fun x : Dev => x.ports) (settlePins_offHost d)
  exact h
theorem settlePins_lanes (d : Dev) : (settlePins d).lanes = d.lanes := by
  have h := congrArg (fun x : Dev => x.lanes) (settlePins_offHost d)
  exact h
theorem settlePins_flt (d : Dev) : (settlePins d).flt = d.flt := by
  have h := congrArg (fun x : Dev => x.flt) (settlePins_offHost d)
  exact h
theorem settlePins_hal (d : Dev) : (settlePins d).hal = { d.hal with fsyncHigh := (settlePins d).hal.fsyncHigh } := by
  have h := congrArg (fun x : Dev => x.hal) (settlePins_offHost d)
  have h' : (settlePins d).hal = (setPins d).hal := h
  rw [h']
  rfl

/-- In the modes that let ports run there are no ports to settle. -/
theorem settlePorts_free (d : Dev) (h : forcesDown d.sys.mode = false) : settlePorts d = d := by
  unfold settlePorts; rw [h]; rfl

theorem settle_ports (d : Dev) (h : forcesDown d.sys.mode = false) : (settle d).ports = d.ports := by
  unfold settle; rw [settlePorts_free d h, settlePins_ports]
theorem settle_lanes (d : Dev) (h : forcesDown d.sys.mode = false) : (settle d).lanes = d.lanes := by
  unfold settle; rw [settlePorts_free d h, settlePins_lanes]
theorem settle_flt (d : Dev) (h : forcesDown d.sys.mode = false) : (settle d).flt = d.flt := by
  unfold settle; rw [settlePorts_free d h, settlePins_flt]
theorem settle_hal (d : Dev) (h : forcesDown d.sys.mode = false) :
    (settle d).hal = { d.hal with fsyncHigh := (settle d).hal.fsyncHigh } := by
  unfold settle; rw [settlePorts_free d h]; exact settlePins_hal d
theorem settle_port (d : Dev) (n : Fin 16) (h : forcesDown d.sys.mode = false) : (settle d).port n = d.port n := by
  unfold Dev.port; rw [settle_ports d h]
theorem settle_lane (d : Dev) (m : Fin 20) (h : forcesDown d.sys.mode = false) : (settle d).lane m = d.lane m := by
  unfold Dev.lane; rw [settle_lanes d h]

/-- What settling depends on, and that it then changes nothing: a block that differs from a safe one only in what no rule of
the pins or the resting ports reads. -/
theorem settle_of_same (d e : Dev) (hp : d.portsRest = true) (hr : d.pinsRight = true) (h1 : e.sys.mode = d.sys.mode)
    (h2 : e.ports = d.ports) (h3 : e.pins = d.pins) (h4 : e.flt = d.flt) (h5 : e.mbxS = d.mbxS) (h6 : e.mbxN = d.mbxN)
    (h7 : e.hal.fsyncHigh = d.hal.fsyncHigh) (h8 : e.raster = d.raster)
    (h9 : e.hal.fsyncCfg = d.hal.fsyncCfg) : settle e = e := by
  apply settle_of_safe
  · unfold Dev.portsRest Dev.port at *; rw [h1, h2]; exact hp
  · unfold Dev.pinsRight faultNLevel fnLevel at *
    rw [h1, h3, h4, h5, h6, h7, h8, h9]; exact hr

/-! ### Occurrences -/

/-- The block without what an occurrence of a fault can move. -/
def Dev.calm (d : Dev) : Dev := { d.still with sys := {}, avs := {}, free := 0 }

theorem calm_of_still {d e : Dev} (h : e.still = d.still) : e.calm = d.calm := by unfold Dev.calm; rw [h]

@[simp] theorem calm_setGroup (d : Dev) (s : Scope) (g : FltGroup) : (setGroup d s g).calm = d.calm := by cases s <;> rfl
theorem calm_enterSt (d : Dev) (n : Fin 16) (st : PortSt) (h : (st == .retired) = false) : (enterSt d n st).calm = d.calm :=
  calm_of_still (still_enterSt d n st h)
@[simp] theorem calm_enterMode (d : Dev) (m : Mode) : (enterMode d m).calm = d.calm := rfl
@[simp] theorem calm_startPoint (d : Dev) (f : BitVec 2) (v : W8) : (startPoint d f v).calm = d.calm := by
  unfold startPoint; dsimp only; split <;> rfl
@[simp] theorem calm_devicePoint (d : Dev) (f : BitVec 2) : (devicePoint d f).calm = d.calm := by
  unfold devicePoint; split
  · rfl
  · simp
@[simp] theorem calm_enterSafe (d : Dev) : (enterSafe d).calm = d.calm := by
  unfold enterSafe; split
  · rfl
  · rfl
  · simp only [calm_devicePoint]; rfl
  · rfl
  · rfl
@[simp] theorem calm_halt (d : Dev) (src : BitVec 10) : (halt d src).calm = d.calm := by
  unfold halt; split <;> rfl
@[simp] theorem calm_writeDump (d : Dev) (rom : Bool) : (writeDump d rom).calm = d.calm := by
  unfold writeDump; dsimp only; split
  · rfl
  · split <;> rfl

theorem calm_ite {c : Prop} [Decidable c] (a b d : Dev) (ha : a.calm = d.calm) (hb : b.calm = d.calm) :
    (if c then a else b).calm = d.calm := by split <;> assumption

@[simp] theorem calm_react (d : Dev) (s : Scope) (src : BitVec 10) (lvl : Nat) : (react d s src lvl).calm = d.calm := by
  unfold react
  cases s with
  | port n => exact calm_ite _ _ _ (calm_enterSt _ _ _ rfl) rfl
  | lane m => rfl
  | device b =>
    dsimp only
    have h0 : (if lvl = 3 then halt d src else d).calm = d.calm := calm_ite _ _ _ (calm_halt _ _) rfl
    refine calm_ite _ _ _ rfl ?_
    have h1 : ∀ m : Mode, (match m with
        | .off | .deep | .boot => (if lvl = 3 then halt d src else d)
        | .safe => { (if lvl = 3 then halt d src else d) with sys := { (if lvl = 3 then halt d src else d).sys with safeByFence := true } }
        | _ => { enterSafe (if lvl = 3 then halt d src else d) with
                  sys := { (enterSafe (if lvl = 3 then halt d src else d)).sys with safeByFence := true } } : Dev).calm = d.calm := by
      intro m
      cases m <;> first | exact h0 | exact (calm_enterSafe _).trans h0
    exact calm_ite _ _ _ ((calm_writeDump _ _).trans (h1 d.sys.mode)) (h1 d.sys.mode)

@[simp] theorem calm_enterOcc (d : Dev) (s : Scope) (src : BitVec 10) (a b c : Nat) (f : Bool) :
    (enterOcc d s src a b c f).calm = d.calm := by
  unfold enterOcc; dsimp only; rw [calm_react]; exact calm_setGroup d s _

@[simp] theorem calm_joinOcc (d : Dev) (s : Scope) (src : BitVec 10) (a b : Nat) (x : Occ) :
    (joinOcc d s src a b x).calm = d.calm := by
  unfold joinOcc; dsimp only
  exact calm_ite _ _ _ ((calm_react _ _ _ _).trans (calm_setGroup d s _)) (calm_setGroup d s _)

@[simp] theorem calm_occurAt (d : Dev) (s : Scope) (src : BitVec 10) (a b c : Nat) (f : Bool) :
    (occurAt d s src a b c f).calm = d.calm := by
  unfold occurAt; split <;> simp

@[simp] theorem calm_occur (d : Dev) (src : BitVec 10) (lvl : Nat) : (occur d src lvl).calm = d.calm := by
  unfold occur; split
  · simp
  · rfl

@[simp] theorem calm_moment (d : Dev) (src : BitVec 10) : (moment d src).calm = d.calm := by
  unfold moment; split
  · split
    · rfl
    · simp
  · rfl

@[simp] theorem calm_setLive (d : Dev) (src : BitVec 10) (on : Bool) : (setLive d src on).calm = d.calm := by
  unfold setLive; split
  · dsimp only; split <;> simp
  · rfl

theorem clk_of_calm {d e : Dev} (h : e.calm = d.calm) : e.clk = d.clk := by change e.calm.clk = d.calm.clk; rw [h]
theorem pwr_of_calm {d e : Dev} (h : e.calm = d.calm) : e.pwr = d.pwr := by change e.calm.pwr = d.calm.pwr; rw [h]
theorem dt_of_calm {d e : Dev} (h : e.calm = d.calm) : e.dt = d.dt := by change e.calm.dt = d.calm.dt; rw [h]
theorem raster_of_calm {d e : Dev} (h : e.calm = d.calm) : e.raster = d.raster := by
  change e.calm.raster = d.calm.raster; rw [h]
theorem boot_of_calm {d e : Dev} (h : e.calm = d.calm) : e.boot = d.boot := by change e.calm.boot = d.calm.boot; rw [h]
theorem bist_of_calm {d e : Dev} (h : e.calm = d.calm) : e.bist = d.bist := by change e.calm.bist = d.calm.bist; rw [h]
theorem mem_of_calm {d e : Dev} (h : e.calm = d.calm) : e.mem = d.mem := by change e.calm.mem = d.calm.mem; rw [h]
theorem pair_of_calm {d e : Dev} (h : e.calm = d.calm) : e.pair = d.pair := by change e.calm.pair = d.calm.pair; rw [h]
theorem age_of_calm {d e : Dev} (h : e.calm = d.calm) : e.age = d.age := by change e.calm.age = d.calm.age; rw [h]
theorem acc_of_calm {d e : Dev} (h : e.calm = d.calm) : e.acc = d.acc := by change e.calm.acc = d.calm.acc; rw [h]

theorem setGroup_flt (d : Dev) (s : Scope) (g : FltGroup) : setGroup d s g = { d with flt := (setGroup d s g).flt } := by
  cases s <;> rfl

/-- The end of a condition is no occurrence: only the collector's registers change. -/
theorem setLive_off (d : Dev) (src : BitVec 10) : setLive d src false = { d with flt := (setLive d src false).flt } := by
  unfold setLive; split
  · dsimp only; simp only [Bool.false_and, Bool.false_eq_true, if_false]
    exact setGroup_flt d _ _
  · rfl

end Sys2Proof.Machine
end

