-- ==== Sys2Proof/Laws/Exec.lean ====
section
/-! SUPPORT. The shape that every meaning has: an effect on the block, then the settling of `settle`; an ill-formed command has no
effect. -/
namespace Sys2Proof.Machine

/-- What `exec` answers: a run of the block, and an empty one for an ill-formed command. -/
def Ran (ok : Bool) (s : State) (r : Host.Outcome State Fault Refusal) : Prop :=
  (∃ g, r = onDev s g) ∧ (ok = false → r = onDev s id)

theorem ran_onDev (s : State) (g : Dev → Dev) : Ran true s (onDev s g) := ⟨⟨g, rfl⟩, fun h => Bool.noConfusion h⟩
theorem ran_onLive (s : State) (g : Dev → Dev) : Ran true s (onLive s g) := ran_onDev s _
theorem ran_onClocks (s : State) (g : Dev → Dev) : Ran true s (onClocks s g) := ran_onDev s _
theorem ran_of (ok : Bool) (s : State) (g : Dev → Dev) (h : ok = false → ∀ d, g d = d) : Ran ok s (onDev s g) :=
  ⟨⟨g, rfl⟩, fun hk => congrArg (onDev s) (funext (h hk))⟩
theorem ran_onLiveIf (ok : Bool) (s : State) (g : Dev → Dev) : Ran ok s (onLiveIf ok s g) :=
  ran_of ok s (fun d => if powered d then (if ok then g d else d) else d) fun h d => by simp [h]
theorem ran_onRow (ok : Bool) (m : Master) (s : State) (g : Dev → Dev) : Ran ok s (onRow ok m s g) :=
  ran_of ok s (fun d => if !ok then d else if powered d then g d else if m == .sb then sidebandMatch (sbAddress d) d else d)
    fun h d => by simp [h]
theorem ran_scrubVisit (x : Fin 132) (addr : Nat) (f : ScrubFinding) (s : State) :
    Ran (Instr.scrubVisit x addr f).wf s (execScrubVisit x addr f s) := by
  refine ran_of (Instr.scrubVisit x addr f).wf s (fun d =>
    if !(Instr.scrubVisit x addr f).wf then d
    else if powered d then if bit d.bist.memCfg 0 then scrubVisit x (memUnit x addr) f d else d
    else if d.sys.mode == .deep then scrubDeep x f d else d) fun h d => ?_
  simp only [h, Bool.not_false, if_true]

/-- Every meaning runs on the block; with ill-formed operands the run is empty. -/
theorem exec_ran (c : Instr) (s : State) : Ran c.wf s (exec c s) := by
  cases c with
  | porstNAssert => exact (by unfold execPorstNAssert; exact ran_onDev s _ : Ran _ s (execPorstNAssert s))
  | aonSupplyLoss => exact (by unfold execAonSupplyLoss; exact ran_onDev s _ : Ran _ s (execAonSupplyLoss s))
  | porstNRelease straps flash => exact (by unfold execPorstNRelease; exact ran_onDev s _ : Ran _ s (execPorstNRelease straps flash s))
  | startUpDelayExpiry r => exact (by unfold execStartUpDelayExpiry; exact ran_onClocks s _ : Ran _ s (execStartUpDelayExpiry r s))
  | sourceQualified c => exact (by unfold execSourceQualified; exact ran_onClocks s _ : Ran _ s (execSourceQualified c s))
  | lpllLock => exact (by unfold execLpllLock; exact ran_onClocks s _ : Ran _ s (execLpllLock s))
  | hpllLock => exact (by unfold execHpllLock; exact ran_onClocks s _ : Ran _ s (execHpllLock s))
  | firmwareVerify => exact (by unfold execFirmwareVerify; exact ran_onLive s _ : Ran _ s (execFirmwareVerify s))
  | endOfBoot => exact (by unfold execEndOfBoot; exact ran_onLive s _ : Ran _ s (execEndOfBoot s))
  | privilegedDeviceReset m key => exact (by unfold execPrivilegedDeviceReset; exact ran_onLive s _ : Ran _ s (execPrivilegedDeviceReset m key s))
  | perstNAssert => exact (by unfold execPerstNAssert; exact ran_onDev s _ : Ran _ s (execPerstNAssert s))
  | functionLevelReset f => exact (by unfold execFunctionLevelReset; exact ran_onLive s _ : Ran _ s (execFunctionLevelReset f s))
  | busMasterEnableClear f => exact (by unfold execBusMasterEnableClear; exact ran_onLive s _ : Ran _ s (execBusMasterEnableClear f s))
  | d3hotEntry f => exact (by unfold execD3hotEntry; exact ran_onLive s _ : Ran _ s (execD3hotEntry f s))
  | pcieLinkDown => exact (by unfold execPcieLinkDown; exact ran_onLive s _ : Ran _ s (execPcieLinkDown s))
  | sqDoorbell f k index => exact (by unfold execSqDoorbell; exact ran_onLive s _ : Ran _ s (execSqDoorbell f k index s))
  | cqDoorbell f k index => exact (by unfold execCqDoorbell; exact ran_onLive s _ : Ran _ s (execCqDoorbell f k index s))
  | eventDoorbell f index => exact (by unfold execEventDoorbell; exact ran_onLive s _ : Ran _ s (execEventDoorbell f index s))
  | ringEnable f kind k cfg => exact (by unfold execRingEnable; exact ran_onLive s _ : Ran _ s (execRingEnable f kind k cfg s))
  | ringDisable f kind k cfg => exact (by unfold execRingDisable; exact ran_onLive s _ : Ran _ s (execRingDisable f kind k cfg s))
  | submissionEntryFetch f k entry => exact (by unfold execSubmissionEntryFetch; exact ran_onLive s _ : Ran _ s (execSubmissionEntryFetch f k entry s))
  | fencedCommandStart h => exact (by unfold execFencedCommandStart; exact ran_onLive s _ : Ran _ s (execFencedCommandStart h s))
  | finalCompletion h => exact (by unfold execFinalCompletion; exact ran_onLive s _ : Ran _ s (execFinalCompletion h s))
  | commandDeadline h => exact (by unfold execCommandDeadline; exact ran_onLive s _ : Ran _ s (execCommandDeadline h s))
  | coalesceTimer f k => exact (by unfold execCoalesceTimer; exact ran_onLive s _ : Ran _ s (execCoalesceTimer f k s))
  | msixUnmask f vector => exact (by unfold execMsixUnmask; exact ran_onLive s _ : Ran _ s (execMsixUnmask f vector s))
  | nop h echo => exact (by unfold execNop; exact ran_onLive s _ : Ran _ s (execNop h echo s))
  | portConfig h port valid words => exact (by unfold execPortConfig; exact ran_onLive s _ : Ran _ s (execPortConfig h port valid words s))
  | portUp h port => exact (by unfold execPortUp; exact ran_onLive s _ : Ran _ s (execPortUp h port s))
  | portDown h port => exact (by unfold execPortDown; exact ran_onLive s _ : Ran _ s (execPortDown h port s))
  | portIsolate h port => exact (by unfold execPortIsolate; exact ran_onLive s _ : Ran _ s (execPortIsolate h port s))
  | portStatus h port => exact (by unfold execPortStatus; exact ran_onLive s _ : Ran _ s (execPortStatus h port s))
  | oamSend h port type len payload => exact (by unfold execOamSend; exact ran_onLive s _ : Ran _ s (execOamSend h port type len payload s))
  | diagTdr h port => exact (by unfold execDiagTdr; exact ran_onLive s _ : Ran _ s (execDiagTdr h port s))
  | diagSignature h port op addr => exact (by unfold execDiagSignature; exact ran_onLive s _ : Ran _ s (execDiagSignature h port op addr s))
  | capture h port source start length addr => exact (by unfold execCapture; exact ran_onLive s _ : Ran _ s (execCapture h port source start length addr s))
  | calRun h ports => exact (by unfold execCalRun; exact ran_onLive s _ : Ran _ s (execCalRun h ports s))
  | bistRun h target ports tests => exact (by unfold execBistRun; exact ran_onLive s _ : Ran _ s (execBistRun h target ports tests s))
  | schedule h trig action ports repeatN time arg => exact (by unfold execSchedule; exact ran_onLive s _ : Ran _ s (execSchedule h trig action ports repeatN time arg s))
  | cancel h handle => exact (by unfold execCancel; exact ran_onLive s _ : Ran _ s (execCancel h handle s))
  | laneSpare h port lane => exact (by unfold execLaneSpare; exact ran_onLive s _ : Ran _ s (execLaneSpare h port lane s))
  | configLoad h offset length addr => exact (by unfold execConfigLoad; exact ran_onLive s _ : Ran _ s (execConfigLoad h offset length addr s))
  | configCommit h => exact (by unfold execConfigCommit; exact ran_onLive s _ : Ran _ s (execConfigCommit h s))
  | fwStage h image last offset length addr => exact (by unfold execFwStage; exact ran_onLive s _ : Ran _ s (execFwStage h image last offset length addr s))
  | fwActivate h images => exact (by unfold execFwActivate; exact ran_onLive s _ : Ran _ s (execFwActivate h images s))
  | timeSet h mode c v => exact (by unfold execTimeSet; exact ran_onLive s _ : Ran _ s (execTimeSet h mode c v s))
  | rasterSet h r => exact (by unfold execRasterSet; exact ran_onLive s _ : Ran _ s (execRasterSet h r s))
  | faultAck h src => exact (by unfold execFaultAck; exact ran_onLive s _ : Ran _ s (execFaultAck h src s))
  | faultForce h src level => exact (by unfold execFaultForce; exact ran_onLive s _ : Ran _ s (execFaultForce h src level s))
  | countersRead h port set addr => exact (by unfold execCountersRead; exact ran_onLive s _ : Ran _ s (execCountersRead h port set addr s))
  | atticSetup h port depth period addr => exact (by unfold execAtticSetup; exact ran_onLive s _ : Ran _ s (execAtticSetup h port depth period addr s))
  | dumpSetup h size addr => exact (by unfold execDumpSetup; exact ran_onLive s _ : Ran _ s (execDumpSetup h size addr s))
  | sleep h target => exact (by unfold execSleep; exact ran_onLive s _ : Ran _ s (execSleep h target s))
  | atticPeriodic n => exact (by unfold execAtticPeriodic; exact ran_onLive s _ : Ran _ s (execAtticPeriodic n s))
  | registerWrite a size value => exact (by unfold execRegisterWrite; exact ran_onRow _ _ s _ : Ran _ s (execRegisterWrite a size value s))
  | rcRead a size => exact (by unfold execRcRead; exact ran_onRow _ _ s _ : Ran _ s (execRcRead a size s))
  | wideSelWrite m sel => exact (by unfold execWideSelWrite; exact ran_onRow _ _ s _ : Ran _ s (execWideSelWrite m sel s))
  | wideD3Read m => exact (by unfold execWideD3Read; exact ran_onRow _ _ s _ : Ran _ s (execWideD3Read m s))
  | lockRead m ix => exact (by unfold execLockRead; exact ran_onRow _ _ s _ : Ran _ s (execLockRead m ix s))
  | lockRelease m ix value => exact (by unfold execLockRelease; exact ran_onRow _ _ s _ : Ran _ s (execLockRelease m ix value s))
  | lockFree m mask => exact (by unfold execLockFree; exact ran_onLive s _ : Ran _ s (execLockFree m mask s))
  | mbxH2dWrite m b word => exact (by unfold execMbxH2dWrite; exact ran_onRow _ _ s _ : Ran _ s (execMbxH2dWrite m b word s))
  | mbxD2hRead m b => exact (by unfold execMbxD2hRead; exact ran_onRow _ _ s _ : Ran _ s (execMbxD2hRead m b s))
  | mbxD2hWrite b => exact (by unfold execMbxD2hWrite; exact ran_onLive s _ : Ran _ s (execMbxD2hWrite b s))
  | mbxIeWrite m b value => exact (by unfold execMbxIeWrite; exact ran_onRow _ _ s _ : Ran _ s (execMbxIeWrite m b value s))
  | ping b => exact (by unfold execPing; exact ran_onLive s _ : Ran _ s (execPing b s))
  | ringStop b => exact (by unfold execRingStop; exact ran_onLive s _ : Ran _ s (execRingStop b s))
  | mbxFaultAck b => exact (by unfold execMbxFaultAck; exact ran_onLive s _ : Ran _ s (execMbxFaultAck b s))
  | maintainEntry b => exact (by unfold execMaintainEntry; exact ran_onLive s _ : Ran _ s (execMaintainEntry b s))
  | maintainEnd b => exact (by unfold execMaintainEnd; exact ran_onLive s _ : Ran _ s (execMaintainEnd b s))
  | safeResume b => exact (by unfold execSafeResume; exact ran_onLive s _ : Ran _ s (execSafeResume b s))
  | configStreamStart b => exact (by unfold execConfigStreamStart; exact ran_onLive s _ : Ran _ s (execConfigStreamStart b s))
  | configStreamData b => exact (by unfold execConfigStreamData; exact ran_onLive s _ : Ran _ s (execConfigStreamData b s))
  | configStreamCommit b => exact (by unfold execConfigStreamCommit; exact ran_onLive s _ : Ran _ s (execConfigStreamCommit b s))
  | configStreamAbort b => exact (by unfold execConfigStreamAbort; exact ran_onLive s _ : Ran _ s (execConfigStreamAbort b s))
  | configStreamTimeout => exact (by unfold execConfigStreamTimeout; exact ran_onLive s _ : Ran _ s (execConfigStreamTimeout s))
  | reservedMailboxType b => exact (by unfold execReservedMailboxType; exact ran_onLive s _ : Ran _ s (execReservedMailboxType b s))
  | sidebandAbandon write addr => exact (by unfold execSidebandAbandon; exact ran_onRow _ _ s _ : Ran _ s (execSidebandAbandon write addr s))
  | parityMismatch offset => exact (by unfold execParityMismatch; exact ran_onLive s _ : Ran _ s (execParityMismatch offset s))
  | parityRewrite => exact (by unfold execParityRewrite; exact ran_onLive s _ : Ran _ s (execParityRewrite s))
  | mgrWdog => exact (by unfold execMgrWdog; exact ran_onLive s _ : Ran _ s (execMgrWdog s))
  | mgrRestartDone => exact (by unfold execMgrRestartDone; exact ran_onLive s _ : Ran _ s (execMgrRestartDone s))
  | mgrStuck => exact (by unfold execMgrStuck; exact ran_onLive s _ : Ran _ s (execMgrStuck s))
  | pcWdog n => exact (by unfold execPcWdog; exact ran_onLive s _ : Ran _ s (execPcWdog n s))
  | pcRestartDone n => exact (by unfold execPcRestartDone; exact ran_onLive s _ : Ran _ s (execPcRestartDone n s))
  | firmwareConfirmed k => exact (by unfold execFirmwareConfirmed; exact ran_onLive s _ : Ran _ s (execFirmwareConfirmed k s))
  | referenceLoss r => exact (by unfold execReferenceLoss; exact ran_onClocks s _ : Ran _ s (execReferenceLoss r s))
  | lpllInputLoss => exact (by unfold execLpllInputLoss; exact ran_onClocks s _ : Ran _ s (execLpllInputLoss s))
  | holdoverTimeout => exact (by unfold execHoldoverTimeout; exact ran_onClocks s _ : Ran _ s (execHoldoverTimeout s))
  | pllOutputLoss p => exact (by unfold execPllOutputLoss; exact ran_onClocks s _ : Ran _ s (execPllOutputLoss p s))
  | pcieRefLoss => exact (by unfold execPcieRefLoss; exact ran_onLive s _ : Ran _ s (execPcieRefLoss s))
  | rcDrift => exact (by unfold execRcDrift; exact ran_onLive s _ : Ran _ s (execRcDrift s))
  | slewComplete => exact (by unfold execSlewComplete; exact ran_onClocks s _ : Ran _ s (execSlewComplete s))
  | clockSwitchForced => exact (by unfold execClockSwitchForced; exact ran_onClocks s _ : Ran _ s (execClockSwitchForced s))
  | clockResume => exact (by unfold execClockResume; exact ran_onLive s _ : Ran _ s (execClockResume s))
  | resume m => exact (by unfold execResume; exact ran_onLive s _ : Ran _ s (execResume m s))
  | refPri m => exact (by unfold execRefPri; exact ran_onLive s _ : Ran _ s (execRefPri m s))
  | altEnSet m => exact (by unfold execAltEnSet; exact ran_onLive s _ : Ran _ s (execAltEnSet m s))
  | altEnClear m => exact (by unfold execAltEnClear; exact ran_onLive s _ : Ran _ s (execAltEnClear m s))
  | lpllCandidateChange m value => exact (by unfold execLpllCandidateChange; exact ran_onLive s _ : Ran _ s (execLpllCandidateChange m value s))
  | faultOccurrence src e => exact (by unfold execFaultOccurrence; exact ran_onLive s _ : Ran _ s (execFaultOccurrence src e s))
  | faultEventPost => exact (by unfold execFaultEventPost; exact ran_onLive s _ : Ran _ s (execFaultEventPost s))
  | fltForceWrite m group value => exact (by unfold execFltForceWrite; exact ran_onLive s _ : Ran _ s (execFltForceWrite m group value s))
  | dumpTimeout => exact (by unfold execDumpTimeout; exact ran_onLive s _ : Ran _ s (execDumpTimeout s))
  | temperatureSample celsius => exact (by unfold execTemperatureSample; exact ran_onLive s _ : Ran _ s (execTemperatureSample celsius s))
  | avsVoltageRequest m volt => exact (by unfold execAvsVoltageRequest; exact ran_onLive s _ : Ran _ s (execAvsVoltageRequest m volt s))
  | avsFrequencyRequest m freq => exact (by unfold execAvsFrequencyRequest; exact ran_onLive s _ : Ran _ s (execAvsFrequencyRequest m freq s))
  | avsTargetReached => exact (by unfold execAvsTargetReached; exact ran_onLive s _ : Ran _ s (execAvsTargetReached s))
  | avsTimeout => exact (by unfold execAvsTimeout; exact ran_onLive s _ : Ran _ s (execAvsTimeout s))
  | avsReadback millivolt => exact (by unfold execAvsReadback; exact ran_onLive s _ : Ran _ s (execAvsReadback millivolt s))
  | padRelease m mask => exact (by unfold execPadRelease; exact ran_onLive s _ : Ran _ s (execPadRelease m mask s))
  | devIdleExpiry => exact (by unfold execDevIdleExpiry; exact ran_onLive s _ : Ran _ s (execDevIdleExpiry s))
  | reefExitDevice c => exact (by unfold execReefExitDevice; exact ran_onLive s _ : Ran _ s (execReefExitDevice c s))
  | longIdleExpiry => exact (by unfold execLongIdleExpiry; exact ran_onLive s _ : Ran _ s (execLongIdleExpiry s))
  | deepEntryPowerOff => exact (by unfold execDeepEntryPowerOff; exact ran_onLive s _ : Ran _ s (execDeepEntryPowerOff s))
  | wakeSourceFire w => exact (by unfold execWakeSourceFire; exact ran_onDev s _ : Ran _ s (execWakeSourceFire w s))
  | sidebandAddressMatch addr => exact (by unfold execSidebandAddressMatch; exact ran_onDev s _ : Ran _ s (execSidebandAddressMatch addr s))
  | peWakeTimeout => exact (by unfold execPeWakeTimeout; exact ran_onDev s _ : Ran _ s (execPeWakeTimeout s))
  | peWakeRelease => exact (by unfold execPeWakeRelease; exact ran_onDev s _ : Ran _ s (execPeWakeRelease s))
  | laneEnable m lane value => exact (by unfold execLaneEnable; exact ran_onLive s _ : Ran _ s (execLaneEnable m lane value s))
  | loopbackSelect m lane value => exact (by unfold execLoopbackSelect; exact ran_onLive s _ : Ran _ s (execLoopbackSelect m lane value s))
  | prbsEnable m lane value => exact (by unfold execPrbsEnable; exact ran_onLive s _ : Ran _ s (execPrbsEnable m lane value s))
  | txeqWrite m lane value => exact (by unfold execTxeqWrite; exact ran_onLive s _ : Ran _ s (execTxeqWrite m lane value s))
  | laneAdaptDone lane scan => exact (by unfold execLaneAdaptDone; exact ran_onLive s _ : Ran _ s (execLaneAdaptDone lane scan s))
  | hostMarker lane bits inPlace => exact (by unfold execHostMarker; exact ran_onLive s _ : Ran _ s (execHostMarker lane bits inPlace s))
  | upstreamBlock lane bits => exact (by unfold execUpstreamBlock; exact ran_onLive s _ : Ran _ s (execUpstreamBlock lane bits s))
  | pauseRepeat n => exact (by unfold execPauseRepeat; exact ran_onLive s _ : Ran _ s (execPauseRepeat n s))
  | downstreamMarker lane => exact (by unfold execDownstreamMarker; exact ran_onLive s _ : Ran _ s (execDownstreamMarker lane s))
  | laneLos lane => exact (by unfold execLaneLos; exact ran_onLive s _ : Ran _ s (execLaneLos lane s))
  | laneTx lane => exact (by unfold execLaneTx; exact ran_onLive s _ : Ran _ s (execLaneTx lane s))
  | eyeMonitorUpdate lane eye heye dfe => exact (by unfold execEyeMonitorUpdate; exact ran_onLive s _ : Ran _ s (execEyeMonitorUpdate lane eye heye dfe s))
  | eyeLow lane => exact (by unfold execEyeLow; exact ran_onLive s _ : Ran _ s (execEyeLow lane s))
  | laneRealigned lane => exact (by unfold execLaneRealigned; exact ran_onLive s _ : Ran _ s (execLaneRealigned lane s))
  | hostTrafficWake n => exact (by unfold execHostTrafficWake; exact ran_onLive s _ : Ran _ s (execHostTrafficWake n s))
  | retryBackoffExpiry n => exact (by unfold execRetryBackoffExpiry; exact ran_onLive s _ : Ran _ s (execRetryBackoffExpiry n s))
  | preparationDone n failing vref rext trims => exact (by unfold execPreparationDone; exact ran_onLiveIf _ s _ : Ran _ s (execPreparationDone n failing vref rext trims s))
  | beaconFrame n => exact (by unfold execBeaconFrame; exact ran_onLive s _ : Ran _ s (execBeaconFrame n s))
  | answerFrame n sync info => exact (by unfold execAnswerFrame; exact ran_onLive s _ : Ran _ s (execAnswerFrame n sync info s))
  | beaconWindowExpiry n => exact (by unfold execBeaconWindowExpiry; exact ran_onLive s _ : Ran _ s (execBeaconWindowExpiry n s))
  | phaseTimeout n => exact (by unfold execPhaseTimeout; exact ran_onLive s _ : Ran _ s (execPhaseTimeout n s))
  | attemptTimeout n => exact (by unfold execAttemptTimeout; exact ran_onLive s _ : Ran _ s (execAttemptTimeout n s))
  | upstreamSuperframeStart n => exact (by unfold execUpstreamSuperframeStart; exact ran_onLive s _ : Ran _ s (execUpstreamSuperframeStart n s))
  | trainingStatusBlock n tsb => exact (by unfold execTrainingStatusBlock; exact ran_onLive s _ : Ran _ s (execTrainingStatusBlock n tsb s))
  | downstreamTrainingDone n r => exact (by unfold execDownstreamTrainingDone; exact ran_onLiveIf _ s _ : Ran _ s (execDownstreamTrainingDone n r s))
  | codewordReceived n seq slot r arrival => exact (by unfold execCodewordReceived; exact ran_onLive s _ : Ran _ s (execCodewordReceived n seq slot r arrival s))
  | downstreamServiceCodeword n msg roundTrip => exact (by unfold execDownstreamServiceCodeword; exact ran_onLive s _ : Ran _ s (execDownstreamServiceCodeword n msg roundTrip s))
  | fecLockLossTimeout n => exact (by unfold execFecLockLossTimeout; exact ran_onLive s _ : Ran _ s (execFecLockLossTimeout n s))
  | drainEnd n => exact (by unfold execDrainEnd; exact ran_onLive s _ : Ran _ s (execDrainEnd n s))
  | reqMapBuild n => exact (by unfold execReqMapBuild; exact ran_onLive s _ : Ran _ s (execReqMapBuild n s))
  | playout n seq slot => exact (by unfold execPlayout; exact ran_onLive s _ : Ran _ s (execPlayout n seq slot s))
  | lossEpisodeEnd n => exact (by unfold execLossEpisodeEnd; exact ran_onLive s _ : Ran _ s (execLossEpisodeEnd n s))
  | loadWindowEnd n => exact (by unfold execLoadWindowEnd; exact ran_onLive s _ : Ran _ s (execLoadWindowEnd n s))
  | freshnessTimeout n stream => exact (by unfold execFreshnessTimeout; exact ran_onLive s _ : Ran _ s (execFreshnessTimeout n stream s))
  | marginUpdate n window => exact (by unfold execMarginUpdate; exact ran_onLive s _ : Ran _ s (execMarginUpdate n window s))
  | slowPeriodExpiry n => exact (by unfold execSlowPeriodExpiry; exact ran_onLive s _ : Ran _ s (execSlowPeriodExpiry n s))
  | heldUpdateTimeout n => exact (by unfold execHeldUpdateTimeout; exact ran_onLive s _ : Ran _ s (execHeldUpdateTimeout n s))
  | activityStateChange n energy trained decisions => exact (by unfold execActivityStateChange; exact ran_onLive s _ : Ran _ s (execActivityStateChange n energy trained decisions s))
  | crosstalkSourceValid src far => exact (by unfold execCrosstalkSourceValid; exact ran_onLive s _ : Ran _ s (execCrosstalkSourceValid src far s))
  | crosstalkSourceInvalid src far => exact (by unfold execCrosstalkSourceInvalid; exact ran_onLive s _ : Ran _ s (execCrosstalkSourceInvalid src far s))
  | shroudTrainTimeout n src far => exact (by unfold execShroudTrainTimeout; exact ran_onLive s _ : Ran _ s (execShroudTrainTimeout n src far s))
  | weakRetryTimeout n src far => exact (by unfold execWeakRetryTimeout; exact ran_onLive s _ : Ran _ s (execWeakRetryTimeout n src far s))
  | rampComplete n src far => exact (by unfold execRampComplete; exact ran_onLive s _ : Ran _ s (execRampComplete n src far s))
  | keepTimeout n src far => exact (by unfold execKeepTimeout; exact ran_onLive s _ : Ran _ s (execKeepTimeout n src far s))
  | leaveEnd n => exact (by unfold execLeaveEnd; exact ran_onLive s _ : Ran _ s (execLeaveEnd n s))
  | glkSwitchWrite n => exact (by unfold execGlkSwitchWrite; exact ran_onLive s _ : Ran _ s (execGlkSwitchWrite n s))
  | oamTimeout n tag => exact (by unfold execOamTimeout; exact ran_onLive s _ : Ran _ s (execOamTimeout n tag s))
  | downshiftReevaluate n => exact (by unfold execDownshiftReevaluate; exact ran_onLive s _ : Ran _ s (execDownshiftReevaluate n s))
  | portIdleExpiry n => exact (by unfold execPortIdleExpiry; exact ran_onLive s _ : Ran _ s (execPortIdleExpiry n s))
  | reef2TimerExpiry n => exact (by unfold execReef2TimerExpiry; exact ran_onLive s _ : Ran _ s (execReef2TimerExpiry n s))
  | refreshSuperframe n correctable rx => exact (by unfold execRefreshSuperframe; exact ran_onLive s _ : Ran _ s (execRefreshSuperframe n correctable rx s))
  | wakeToneDetected n => exact (by unfold execWakeToneDetected; exact ran_onDev s _ : Ran _ s (execWakeToneDetected n s))
  | wakeToneEnd n => exact (by unfold execWakeToneEnd; exact ran_onLive s _ : Ran _ s (execWakeToneEnd n s))
  | autonegResolved n mode master eee oam => exact (by unfold execAutonegResolved; exact ran_onLive s _ : Ran _ s (execAutonegResolved n mode master eee oam s))
  | linkStatusOk n rx errSq symbols => exact (by unfold execLinkStatusOk; exact ran_onLive s _ : Ran _ s (execLinkStatusOk n rx errSq symbols s))
  | linkStatusFail n => exact (by unfold execLinkStatusFail; exact ran_onLive s _ : Ran _ s (execLinkStatusFail n s))
  | standardTrainingFailure n => exact (by unfold execStandardTrainingFailure; exact ran_onLive s _ : Ran _ s (execStandardTrainingFailure n s))
  | stdFrameWake n => exact (by unfold execStdFrameWake; exact ran_onLive s _ : Ran _ s (execStdFrameWake n s))
  | tc10SleepRequest n frameWaiting => exact (by unfold execTc10SleepRequest; exact ran_onLive s _ : Ran _ s (execTc10SleepRequest n frameWaiting s))
  | tc10SleepAnswer n ack => exact (by unfold execTc10SleepAnswer; exact ran_onLive s _ : Ran _ s (execTc10SleepAnswer n ack s))
  | tc10WakePulse n => exact (by unfold execTc10WakePulse; exact ran_onDev s _ : Ran _ s (execTc10WakePulse n s))
  | lpiReceived n fromLine lpi => exact (by unfold execLpiReceived; exact ran_onLive s _ : Ran _ s (execLpiReceived n fromLine lpi s))
  | ppsEdge rising => exact (by unfold execPpsEdge; exact ran_onLive s _ : Ran _ s (execPpsEdge rising s))
  | ppsMiss => exact (by unfold execPpsMiss; exact ran_onLive s _ : Ran _ s (execPpsMiss s))
  | slewEnd => exact (by unfold execSlewEnd; exact ran_onLive s _ : Ran _ s (execSlewEnd s))
  | fsyncEdge rising => exact (by unfold execFsyncEdge; exact ran_onLive s _ : Ran _ s (execFsyncEdge rising s))
  | rasterEdgeTimeout => exact (by unfold execRasterEdgeTimeout; exact ran_onLive s _ : Ran _ s (execRasterEdgeTimeout s))
  | rasterHoldoverExpiry => exact (by unfold execRasterHoldoverExpiry; exact ran_onLive s _ : Ran _ s (execRasterHoldoverExpiry s))
  | rasterTakeover => exact (by unfold execRasterTakeover; exact ran_onLive s _ : Ran _ s (execRasterTakeover s))
  | masterFrameStart => exact (by unfold execMasterFrameStart; exact ran_onLive s _ : Ran _ s (execMasterFrameStart s))
  | fsyncOutPulseEnd => exact (by unfold execFsyncOutPulseEnd; exact ran_onLive s _ : Ran _ s (execFsyncOutPulseEnd s))
  | portRasterTimeout n => exact (by unfold execPortRasterTimeout; exact ran_onLive s _ : Ran _ s (execPortRasterTimeout n s))
  | rasterLockRetry n => exact (by unfold execRasterLockRetry; exact ran_onLive s _ : Ran _ s (execRasterLockRetry n s))
  | blankingOpen n => exact (by unfold execBlankingOpen; exact ran_onLive s _ : Ran _ s (execBlankingOpen n s))
  | triggerCommandSend entry => exact (by unfold execTriggerCommandSend; exact ran_onLive s _ : Ran _ s (execTriggerCommandSend entry s))
  | adaptStep entry => exact (by unfold execAdaptStep; exact ran_onLive s _ : Ran _ s (execAdaptStep entry s))
  | calStep entry => exact (by unfold execCalStep; exact ran_onLive s _ : Ran _ s (execCalStep entry s))
  | bistSlice entry failing => exact (by unfold execBistSlice; exact ran_onLive s _ : Ran _ s (execBistSlice entry failing s))
  | reefEnter entry => exact (by unfold execReefEnter; exact ran_onLive s _ : Ran _ s (execReefEnter entry s))
  | reefExit entry => exact (by unfold execReefExit; exact ran_onLive s _ : Ran _ s (execReefExit entry s))
  | trigOut entry => exact (by unfold execTrigOut; exact ran_onLive s _ : Ran _ s (execTrigOut entry s))
  | modeSwitch entry => exact (by unfold execModeSwitch; exact ran_onLive s _ : Ran _ s (execModeSwitch entry s))
  | captureStart entry => exact (by unfold execCaptureStart; exact ran_onLive s _ : Ran _ s (execCaptureStart entry s))
  | timestamp entry => exact (by unfold execTimestamp; exact ran_onLive s _ : Ran _ s (execTimestamp entry s))
  | calWaitExpiry entry => exact (by unfold execCalWaitExpiry; exact ran_onLive s _ : Ran _ s (execCalWaitExpiry entry s))
  | calTempSample n celsius => exact (by unfold execCalTempSample; exact ran_onLive s _ : Ran _ s (execCalTempSample n celsius s))
  | calRunEnd n vref rext codes => exact (by unfold execCalRunEnd; exact ran_onLiveIf _ s _ : Ran _ s (execCalRunEnd n vref rext codes s))
  | reflectogramUpdate n => exact (by unfold execReflectogramUpdate; exact ran_onLive s _ : Ran _ s (execReflectogramUpdate n s))
  | reflectCompareHourly n => exact (by unfold execReflectCompareHourly; exact ran_onLive s _ : Ran _ s (execReflectCompareHourly n s))
  | shieldMeasure n power => exact (by unfold execShieldMeasure; exact ran_onLive s _ : Ran _ s (execShieldMeasure n power s))
  | tdrComplete n echoes energy trained => exact (by unfold execTdrComplete; exact ran_onLive s _ : Ran _ s (execTdrComplete n echoes energy trained s))
  | ageMeasurement cycles => exact (by unfold execAgeMeasurement; exact ran_onLiveIf _ s _ : Ran _ s (execAgeMeasurement cycles s))
  | plannerHourly n => exact (by unfold execPlannerHourly; exact ran_onLive s _ : Ran _ s (execPlannerHourly n s))
  | scrubVisit x addr f => exact ran_scrubVisit x addr f s
  | correctedRead x addr => exact (by unfold execCorrectedRead; exact ran_onLiveIf _ s _ : Ran _ s (execCorrectedRead x addr s))
  | uncorrectableAccess x addr a => exact (by unfold execUncorrectableAccess; exact ran_onLiveIf _ s _ : Ran _ s (execUncorrectableAccess x addr a s))
  | trackerWriteBack x addr => exact (by unfold execTrackerWriteBack; exact ran_onLiveIf _ s _ : Ran _ s (execTrackerWriteBack x addr s))
  | substitutionComplete x array row => exact (by unfold execSubstitutionComplete; exact ran_onLiveIf _ s _ : Ran _ s (execSubstitutionComplete x array row s))
  | pageReloadDone x ok => exact (by unfold execPageReloadDone; exact ran_onLiveIf _ s _ : Ran _ s (execPageReloadDone x ok s))
  | insvcPassTimer => exact (by unfold execInsvcPassTimer; exact ran_onLive s _ : Ran _ s (execInsvcPassTimer s))
  | logicBistEnd n failing => exact (by unfold execLogicBistEnd; exact ran_onLive s _ : Ran _ s (execLogicBistEnd n failing s))
  | privTestStart ix => exact (by unfold execPrivTestStart; exact ran_onLive s _ : Ran _ s (execPrivTestStart ix s))
  | privTestEnd ix failed src reader rows => exact (by unfold execPrivTestEnd; exact ran_onLiveIf _ s _ : Ran _ s (execPrivTestEnd ix failed src reader rows s))
  | joinEnd => exact (by unfold execJoinEnd; exact ran_onLive s _ : Ran _ s (execJoinEnd s))
  | heartbeatSend => exact (by unfold execHeartbeatSend; exact ran_onLive s _ : Ran _ s (execHeartbeatSend s))
  | heartbeatReceived msg => exact (by unfold execHeartbeatReceived; exact ran_onLive s _ : Ran _ s (execHeartbeatReceived msg s))
  | heartbeatLoss => exact (by unfold execHeartbeatLoss; exact ran_onLive s _ : Ran _ s (execHeartbeatLoss s))
  | pwLaneTimeout => exact (by unfold execPwLaneTimeout; exact ran_onLive s _ : Ran _ s (execPwLaneTimeout s))
  | confirmExpiry => exact (by unfold execConfirmExpiry; exact ran_onLive s _ : Ran _ s (execConfirmExpiry s))
  | pairHoldReevaluate => exact (by unfold execPairHoldReevaluate; exact ran_onLive s _ : Ran _ s (execPairHoldReevaluate s))
  | pairEnable m value => exact (by unfold execPairEnable; exact ran_onLive s _ : Ran _ s (execPairEnable m value s))
  | hostSignalDetect lane => exact (by unfold execHostSignalDetect; exact ran_onLive s _ : Ran _ s (execHostSignalDetect lane s))
  | blockLockChange lane locked inverted => exact (by unfold execBlockLockChange; exact ran_onLive s _ : Ran _ s (execBlockLockChange lane locked inverted s))
  | stdOamMessage n msg => exact (by unfold execStdOamMessage; exact ran_onLive s _ : Ran _ s (execStdOamMessage n msg s))
  | tc10SleepTimeout n => exact (by unfold execTc10SleepTimeout; exact ran_onLive s _ : Ran _ s (execTc10SleepTimeout n s))
  | perstNRelease => exact (by unfold execPerstNRelease; exact ran_onDev s _ : Ran _ s (execPerstNRelease s))
  | pcieRefReturn => exact (by unfold execPcieRefReturn; exact ran_onLive s _ : Ran _ s (execPcieRefReturn s))
  | pointOfNoReturn ratio lost => exact (by unfold execPointOfNoReturn; exact ran_onLive s _ : Ran _ s (execPointOfNoReturn ratio lost s))
  | forecastLeadReached n => exact (by unfold execForecastLeadReached; exact ran_onLive s _ : Ran _ s (execForecastLeadReached n s))
  | bufferReadCompletion h data failOffset => exact (by unfold execBufferReadCompletion; exact ran_onLive s _ : Ran _ s (execBufferReadCompletion h data failOffset s))
  | flashWriteDone ok => exact (by unfold execFlashWriteDone; exact ran_onLive s _ : Ran _ s (execFlashWriteDone ok s))

/-- A command that completes leaves the queue as it was and the block settled. -/
theorem exec_next (c : Instr) (s t : State) (h : exec c s = .next t) : ∃ g : Dev → Dev, t = { s with dev := settle (g s.dev) } := by
  obtain ⟨g, hg⟩ := (exec_ran c s).1
  rw [hg, onDev_next] at h
  cases h
  exact ⟨g, rfl⟩

end Sys2Proof.Machine
end

