-- ==== Sys2Proof/Tests/Slice0.lean ====
section
/-! SUPPORT. Tests on fixed values: the worked examples and tables of the manual, an ill-formed operand for each check, and for
each claim a block and operands that meet the hypotheses of each of its clauses (`meets_` and the claim's name). -/
namespace Sys2Proof.Tests

open Sys2Proof.Machine

-- The kernel's evaluations run one after another: each waiting thread holds a stack of its own.
set_option Elab.async false

/-! ### Small blocks -/


/-- The rings of a function, each of 64 entries: submission ring 0 holds one entry; its completion ring and the event ring run. -/
def ringsUp : FnSt :=
  { sq := (Vector.replicate 16 {}).set 0 { cfg := 0x8000_0000, st := .run, prod := 1 },
    cq := (Vector.replicate 16 {}).set 0 { cfg := 0x8000_0000, st := .run },
    ev := { cfg := 0x9000_0000, st := .run } }

/-- A device in RUN with its supplies and clocks, the firmware running, and the rings of both functions. -/
def rig : Dev :=
  { sys := { mode := .run, mgrUp := true, firstRun := false }, pins := { porstN := true, faultN := true },
    clk := { priStarted := true, priQual := true, lpll := .locked, hpll := .locked, lpllIn := some (.ref .xtal), coreSrc := 0 },
    pwr := { pllOn := true, coreOn := true, laneOn := true, pwOn := true }, dt := { running := true, dt := 1000 },
    host := { perst := false, pf0 := ringsUp, pf1 := ringsUp }, boot := { verified := true } }

/-- The rig in another mode, with its ports and pins as that mode puts them. -/
def inMode (m : Mode) (d : Dev := rig) : Dev := settle { d with sys := { d.sys with mode := m } }

def st (d : Dev) : State := { dev := d }

/-- A command of PF0's ring 0. -/
def hd : CmdHdr := { fn := .pf0, ring := 0, tag := 7, fence := false, deadline := 0 }

/-- The rig with PF0's submission ring 0, completion ring 0 or event ring changed. -/
def sq0 (f : SqRing → SqRing) (d : Dev := rig) : Dev := modSq d .pf0 0 f
def cq0 (f : CqRing → CqRing) (d : Dev := rig) : Dev := modCq d .pf0 0 f
def ev0 (f : EvRing → EvRing) (d : Dev := rig) : Dev := modEv d .pf0 f

/-- Vector 63 of PF0 unmasked. -/
def unmask (d : Dev) : Dev := d.modFn .pf0 fun x => { x with msix := x.msix.set 63 { masked := false } }

/-- The rig with the manager down. -/
def noMgr : Dev := { rig with sys := { rig.sys with mgrUp := false } }

/-- The rig with its clocks changed. -/
def clkd (f : ClkSt → ClkSt) (d : Dev := rig) : Dev := { d with clk := f d.clk }

/-- A firmware image that passes the checks of the ROM. -/
def fwGood : FwImage := ⟨1, 0, true, true⟩
def flash0 : Flash := ⟨none, none, none, none, none, none, [], none⟩

/-- A device in BOOT. -/
def booting (b : BootSt) (d : Dev := noMgr) : Dev := inMode .boot { d with boot := b }

/-- Port 0 of a device changed. -/
def atP (f : Port → Port) (d : Dev := rig) : Dev := d.modPort 0 f
def linked (s : PortSt) (d : Dev := rig) : Dev := atP (fun p => { p with link := { p.link with st := s } }) d
def withOp (c : Cmd) (d : Dev := rig) : Dev :=
  { d with host := { d.host with ops := [{ handle := 5, fn := .pf0, ring := 0, cq := 0, tag := 7, cmd := c }] } }

/-- Ports 0 and 1 UP at GL12, in one bundle of the Shroud. -/
def bundled (d : Dev := rig) : Dev :=
  let up := fun (p : Port) => { p with
    on := true, link := { p.link with st := .up, mode := .gl12 },
    train := { p.train with fecLock := true }, cfg := { p.cfg with shrPort := 0xE1 } }
  { (d.modPort 0 up).modPort 1 up with sys := { d.sys with shrCfg := 0x6414_0A03 } }

/-- A source raised at a level, and the pins as that puts them. -/
def raisedAt (src : BitVec 10) (l : Nat) (d : Dev := rig) : Dev :=
  match srcScope src with
  | some s => settle (setGroup d s (({ raised := setBit 0 (srcBit src) true } : FltGroup).setLevel (srcBit src) l))
  | none => d

/-- An image of one empty section of TYPE 4 (R437). -/
def image0 : List W8 :=
  [90, 86, 67, 70, 1, 0, 32, 0, 48, 0, 0, 0, 1, 0, 0, 0, 37, 22, 1, 0, 9, 0, 0, 0, 3, 0, 0, 0, 0, 0, 0, 0, 4, 0,
  0, 0, 0, 0, 0, 0, 0, 0, 0, 0, 247, 80, 101, 225]

def isOk (e : Except ImageErr (List Section)) (l : List Section) : Bool :=
  match e with
  | .ok x => x == l
  | .error _ => false

theorem ok_of_isOk {e : Except ImageErr (List Section)} {l : List Section} (h : isOk e l = true) : e = .ok l := by
  cases e with
  | ok x => simpa [isOk] using h
  | error x => cases h

/-- An image that asks to be stored; and a device that holds an image. -/
def image1 : List W8 := (image0.take 44).set 14 1 ++ [254, 17, 222, 244]
def imaged (b : List W8) (d : Dev := rig) : Dev := { d with cfg := { d.cfg with image := List.zip (List.range b.length) b } }

/-- The one section of those images. -/
def sect0 : List Section := [⟨4, false, []⟩]

/-- An operation of PF0's ring 0, open, and ended. -/
def op5 (c : Cmd) : Op := { handle := 5, fn := .pf0, ring := 0, cq := 0, tag := 7, cmd := c }
def opS : Op := op5 (.schedule 0 6 0 0 0 0)
def opEnd : Op := { op5 .configCommit with final := some { status := 0 } }
def withOps (l : List Op) (d : Dev := rig) : Dev := { d with host := { d.host with ops := l } }

/-- A request waits in a mailbox. -/
def mail (b : Box) (w : W32) (who : BitVec 2 := 3) (d : Dev := rig) : Dev :=
  modMbx d b fun x => { x with h2dFull := true, h2d := w, wrSrc := who }

/-- A word stream of 24 words is open at box S for the sideband, n words in. -/
def streaming (n : Nat) (d : Dev := inMode .hold) : Dev :=
  { d with cfg := { d.cfg with stream := some (.s, 3), streamLen := 24, streamWords := n } }

/-- SAFE after a trip, and 256 µs later. -/
def tripped : Dev := inMode .safe { rig with sys := { rig.sys with safeByTrip := true } }
def calm : Dev := { tripped with dt := { tripped.dt with dt := 64000 } }

/-- An occurrence of this tick, entered already. -/
def occd (o : Occ) (d : Dev := rig) : Dev := { d with flt := { d.flt with hist := [{ o with stamp := d.stamp }] } }
def avsd (f : AvsSt → AvsSt) (d : Dev := rig) : Dev := { d with avs := f d.avs }
def haltd (f : HaltSt → HaltSt) (d : Dev := rig) : Dev := { d with flt := { d.flt with halt := f d.flt.halt } }

def trainP (f : TrainSt → TrainSt) (p : Port) : Port := { p with train := f p.train }
def linkP (f : LinkSt → LinkSt) (p : Port) : Port := { p with link := f p.link }
def rtxP (f : RtxSt → RtxSt) (p : Port) : Port := { p with rtx := f p.rtx }
def lineP (f : LineSt → LineSt) (p : Port) : Port := { p with line := f p.line }
def cfgP (f : PortCfg → PortCfg) (p : Port) : Port := { p with cfg := f p.cfg }
def stdP (f : StdSt → StdSt) (p : Port) : Port := { p with std := f p.std }
def stdUp (p : Port) : Port := linkP (fun l => { l with st := .up, mode := .t2g5 }) p

/-- Port 0 in a phase of a training attempt. -/
def inPh (k : BitVec 4) (f : Port → Port := id) (d : Dev := rig) : Dev :=
  atP (fun p => f { p with on := true, link := { p.link with st := .training, phase := k, attempt := 9 } }) d

/-- Port 0 UP at GL25, on lane 0, which carries Byham. -/
def up0 (f : Port → Port := id) (d : Dev := rig) : Dev :=
  (atP (fun p => f { p with on := true, link := { p.link with st := .up, mode := .gl25 } }) d).modLane 0 fun l =>
    { l with cfg := 0x8000_0000, coding := 1, port := some 0 }

/-- Lane 0 enabled, with its receiver and coding. -/
def lit (r : RxLane) (c : BitVec 3) (f : LaneSt → LaneSt := id) (d : Dev := rig) : Dev :=
  d.modLane 0 fun l => f { l with cfg := 0x8000_0000, rx := r, coding := c }

/-- Lane 0 with a port DOWN that it feeds, or one UP that feeds it; a host's block on such a lane. -/
def fed (c : BitVec 3) (f : Port → Port := id) (g : LaneSt → LaneSt := id) : Dev :=
  lit .locked c (fun l => g { l with hostPort := 0, port := some 0 }) (linked .down (up0 f))
def feeds (f : LaneSt → LaneSt := id) : Dev :=
  lit .locked 1 (fun l => f { l with port := some 0 }) (up0 (rtxP fun r => { r with played := true }))
def wire0 (d : Dev) : List Bool := blockWire (d.lane 0) 0

/-- An answer frame of port 0 with GL25, GL12 and GL6 (R95), and a training status block (R104). -/
def answer0 : BitVec 192 :=
  let body := lineBits [(4, 1), (8, 7), (1, 1), (1, 0), (2, 0), (4, 0), (9, (devId rig).toNat), (3, 0), (8, 9), (8, 5), (8, 0), (16, 99), (104, 0)]
  BitVec.ofNat 192 (body * 65536 + crc16 176 body)
def status0 : BitVec 256 :=
  let body := lineBits [(8, 1), (8, 9), (16, 77), (24, 5), (24, 5), (1, 1), (1, 1), (4, 0), (154, 0)]
  BitVec.ofNat 256 (body * 65536 + crc16 240 body)
def trained (e : Nat) (c : Int := 1) : TrainResult :=
  { errSq := e, symbols := 1, correlation := c, turn := 0, roundTrip := 0, ntap := 24,
    taps := List.replicate 24 0, seedUs := 1, seedDs := 1, il := 0 }

/-- The margin that such a result gives, in 0.1 dB. -/
def margin3 (e : Nat) : Int := (s16 (marginOf ((inPh 3).port 0).link.mode e 1 30)).toInt

/-- Samples that no codeword is near. -/
def noise : List Int := (List.range 100).map fun (i : Nat) => if i * i % 7 < 3 then 8000 else -24000

/-- A reflectogram without a peak, and one with a peak in bin 100. -/
def flat : List W16 := List.replicate 480 0xFFFF
def dip : List W16 := flat.set 100 50

/-- One clock of the receiver, without a sample. -/
def clock0 : List RxClock := [{ adc := [0], own := [], bus := [] }]

/-- A near-end filter of port 0 for source 1. -/
def filt01 (f : Filt) (d : Dev := bundled) : Dev := modFilt d 0 1 false fun _ => f
def reg0 (n : Nat) : OamX := { tag := 3, type := 1, len := 4, payload := 0, tries := n, sent := 1, op := some 5 }

/-- Slot 1 of superframe 4 is a retransmission slot for slot 2 of superframe 3. -/
def map4 : MapEntry := ⟨4, (List.range 15).map fun i => if i == 1 then (true, 1, 2) else (false, 0, 0)⟩

/-- A raster of 100 lines of 100 ticks, its first frame at DT 0. -/
def rast (s : RasterSt) (f : RasterReg → RasterReg := id) (d : Dev := rig) : Dev :=
  { d with raster := f { d.raster with lines := 100, lp := 0x0064_0000, lpNom := 0x0064_0000, lockSrc := 1, st := s } }
def rset : RasterParams :=
  { lp := 0x0064_0000, lines := 2, first := 0, last := 1, lockSrc := 0, holdFrames := 60, frame0 := 0, anchor := 0 }

/-- One calendar entry, number 4095, of port 0 and operation 5. -/
def ent (action : W8) (trig : BitVec 3) (h : W16 := 5) : CalEntry :=
  { idx := 4095, trig := trig, time := 2000, rep := 0, ports := 1, action := action, arg := 0, handle := h }
def withCal (e : CalEntry) (d : Dev := withOps [opS]) : Dev := { d with hal := { d.hal with cal := [e] } }
def diagP (f : DiagSt → DiagSt) (p : Port) : Port := { p with diag := f p.diag }
def bistP (f : BistPort → BistPort) (p : Port) : Port := { p with bist := f p.bist }

/-- The tracker of memory 0 with one entry. -/
def tracked (c : Nat) (watch : Bool) (repaired : List (Nat × Nat) := []) : Dev :=
  rig.modMem 0 fun m => { m with track := [(0, c, watch)], repaired := repaired }

/-- A privileged test under way in MAINTAIN, run by operation 5. -/
def priv (run left : BitVec 4) : Dev :=
  inMode .maintain (withOps [op5 (.bistRun 2 0 15)] { rig with bist := { rig.bist with privOp := some 5, privRun := run, privLeft := left } })

/-- A device of the pair in a role, its party-wall lanes locked; and a heartbeat of the other. -/
def paired (r : PairRole) (f : PairSt → PairSt := id) (d : Dev := rig) : Dev :=
  { (d.modLane 18 fun l => { l with rx := .locked, clkOk := true }).modLane 19 fun l => { l with rx := .locked, clkOk := true } with
    pair := f { d.pair with st := r, cfg := 1 } }
def beat (e : BitVec 5) (m : Mode) : BitVec 256 := heartbeatBits (paired .lead (fun p => { p with pepoch := e }) (inMode m))

/-- Every port carries a link to both devices of the pair, and none is timed by this one. -/
def allDual : Dev := { rig with ports := vmap rig.ports (linkP fun l => { l with st := .up, dual := true, timingHere := false }) }

theorem noTrack {d : Dev} (h : d.mem = Vector.replicate 132 {}) (x : Fin 132) : (d.memSt x).track = [] := by
  simp [Dev.memSt, h]

/-! ### Worked examples of the manual -/

/-- The block after a command; the block itself where the command stops. -/
def after (c : Instr) (d : Dev) : Dev :=
  match exec c (st d) with
  | .next t => t.dev
  | _ => d

/-- The example sensor's raster (example after R16): LP 2,057.5 ticks, 2,025 lines. -/
def sensor (s : RasterSt) (d : Dev := rig) : Dev :=
  { d with raster := { d.raster with lp := 0x0809_8000, lpNom := 0x0809_8000, lines := 2025, first := 1944, last := 2024, st := s } }

-- Example after R65: slots 9 and 10 of superframe s - 3 are resent in superframe s + 1 with BACK = 4.
theorem test_back_names_the_lost_slot : targetOf 101 (true, 4, 9) = (97, 9) := by decide

-- Example after R49: a round trip of 744 ns and T_CAM of 600 ns give PATH = 0x1200.
theorem test_path : pathOf (744 / 4 * 256) 38400 = 0x1200 := by decide

-- Example after R120: START is the first multiple of 4 at least 8 superframes after 281; SWITCH likewise after 10,573.
theorem test_start_and_switch : placeUseq 281 8 = 292 ∧ placeUseq 10573 8 = 10584 := by decide

-- Example after R205: FRESH_LIMIT = 2 frames of the example sensor's raster are 8,332,875 ticks.
theorem test_fresh_limit : freshLimit (sensor .free) ((sensor .free).port 5) = 8332875 := by decide

-- Example after R244: 0, eleven 1s, nine 0s and 1 get two stuff bits, which the receiver removes.
theorem test_stuffing :
    stuff ([false] ++ List.replicate 11 true ++ List.replicate 9 false ++ [true]) true 1 =
      [false] ++ List.replicate 9 true ++ [false] ++ List.replicate 2 true ++ List.replicate 9 false ++ [true, true] ∧
    unstuff (stuff ([false] ++ List.replicate 11 true ++ List.replicate 9 false ++ [true]) true 1) true 1 =
      [false] ++ List.replicate 11 true ++ List.replicate 9 false ++ [true] := by decide

-- Example after R249: the marker of lane 5 and port 5; bits 20–63 are 0x296_04B3_9572.
theorem test_marker :
    rptrBits 0 0 1203 = 0b100000010010110011 ∧
    (byhamMarker 5 5 0b100000010010110011 38258).toNat / 65536 % 2 ^ 44 = 0x29604B39572 ∧
    (byhamMarker 5 5 0b100000010010110011 38258).toNat / 2 ^ 60 = 0b11111111110010110100 := by decide +kernel

-- Same example: 6,700 blocks received and 1,210 held give CREDIT 38,258.
theorem test_credit :
    limitOf { lane := 5, up := { blocks := List.replicate 1210 0, count := 6700 } } = 38258 := by
  rw [limitOf, List.length_replicate]; decide

-- Example after R16: a frame of the example sensor lasts 16,665.75 µs, which is 4,166,437.5 ticks.
theorem test_frame_length : (sensor .free).raster.frameLen = 4166437 * 65536 + 32768 := by decide

-- Example after R354: the SCHEDULE entry of PF1, written out byte by byte.
def exampleEntry : BitVec 512 :=
  0x30 ||| (0x0042 <<< 16) ||| (0x01 <<< 128) ||| (0x06 <<< 136) ||| (0x0020 <<< 144) ||| (0x0000_10CC_0000_0000 <<< 192) |||
    (0x8007_0001 <<< 256)

theorem test_schedule_entry :
    entryCmd exampleEntry = some (.schedule 1 6 0x0020 0 0x0000_10CC_0000_0000 0x8007_0001) ∧ b16 exampleEntry 2 = 0x0042 ∧
    reservedBad exampleEntry (.schedule 1 6 0x0020 0 0x0000_10CC_0000_0000 0x8007_0001) = [] := by decide +kernel

-- The same: ring 2 of PF1, of depth 256, with 18 written to its doorbell; port 5 is UP and the raster stands at frame 4,250.
def exampleRig : Dev :=
  let ring : SqRing := { cfg := 0x8022_0000, st := .run, prod := 18, cons := 17 }
  let blank : Vector SqRing 16 := Vector.replicate 16 {}
  let d := sensor .free
  let d := { d with
    raster := { d.raster with frame0 := 4250 }, boot := { d.boot with strap := { d.boot.strap with sbAddr := 0b101 } },
    host := { d.host with lastHandle := 0x0A3B, pf0 := {}, pf1 := { ringsUp with
      sq := blank.set 2 ring, cq := ringsUp.cq.set 2 { cfg := 0x8000_0000, st := .run } } } }
  d.modPort 5 fun p => { p with on := true, link := { p.link with st := .up, mode := .gl25 } }

theorem test_schedule_accepted :
    (match (after (.submissionEntryFetch .pf1 2 (.data exampleEntry)) exampleRig).out with
     | o@(.memWrite _ _ b) :: _ => isCompletion .pf1 0x0042 0x0A3C 0x0001 0 0 0 o && recFld b 6 1 == 0x02 && recFld b 8 2 == 18
     | _ => false) = true := by decide +kernel

-- Example after R393: counter 6 stands in chunk 3 of CLASS 0x50, in WIDE_D0 and WIDE_D1.
theorem test_wide_counter :
    ((after (.wideSelWrite .pf0 0x5050_0003) (rig.modPort 5 fun p => { p with
      on := true, rtx := { p.rtx with counters := p.rtx.counters.set 6 500 } })).acc.widePf0.d) =
      #v[0x0000_01F4, 0, 0, 0] := by decide +kernel

-- Examples after R168 and R175: with source and reader in GL25 a far-end filter has 12 coefficients; a near-end filter has 48 × 20.
theorem test_far_end_filter : farRQ .gl25 .gl25 = (1, 1) ∧ nearQ .gl25 .gl25 = 20 ∧ nearTaps 20 = 48 := by decide

-- Example after R168: a full ramp in GL25 at RAMP_SH = 20 takes 69.9 µs.
theorem test_ramp : rampTicks rig .gl25 = 17477 := by decide

-- Example after R409: the sideband sends PING with TAG 3 in RUN.
theorem test_ping_request : (after (.mbxH2dWrite .sb .n 0x1300_0000) rig).mbxN.h2d = 0x1300_0000 := by decide +kernel
theorem test_ping_reply :
    let d := after (.mbxD2hWrite .n) (after (.ping .n) (after (.mbxH2dWrite .sb .n 0x1300_0000) rig))
    d.mbxN.d2h = 0x1300_0003 ∧ mbxStat d.mbxN = 0x400F_0000 ∧ d.pins.sbIrqN = false ∧
    (after (.mbxD2hRead .sb .n) d).mbxN.d2hFull = false ∧ (after (.mbxD2hRead .sb .n) d).pins.sbIrqN = true := by
  decide +kernel

-- Example after R447: START is 0xC100_0400; the first DATA word is 0xD200_565A, and its reply's RESULT is 1.
theorem test_stream_start :
    (after (.configStreamStart .n) (mail .n 0xC100_0400 3 (inMode .hold))).cfg.streamLen = 1024 ∧
    wordType 0xC100_0400 = 12 := by decide +kernel
theorem test_stream_data :
    (mbx (after (.configStreamData .n) (mail .n 0xD200_565A 3
      { inMode .hold with cfg := { rig.cfg with stream := some (.n, 3), streamLen := 1024 } })) .n).held =
        [(0xD200_0001, 3)] ∧
    (after (.configStreamData .n) (mail .n 0xD200_565A 3
      { inMode .hold with cfg := { rig.cfg with stream := some (.n, 3), streamLen := 1024 } })).cfg.image =
        [(0, 0x5A), (1, 0x56)] := by decide +kernel

-- Example after R523: PC_WDOG of port 7 is source 0x17B; it is raised at NOTE, then DEGRADE, then FENCE.
def rig7 (d : Dev := rig) : Dev := d.modPort 7 fun p => { p with on := true, link := { p.link with st := .up, mode := .gl25 } }
theorem test_watchdog_source : srcPort 7 11 = 0x17B := by decide
theorem test_watchdog_first :
    (group (after (.pcWdog 7) (rig7)) (.port 7)).level 11 = 0 ∧ isRaised (after (.pcWdog 7) (rig7)) 0x17B = true ∧
    ((after (.pcWdog 7) (rig7)).port 7).link.st = .up := by decide +kernel
theorem test_watchdog_third :
    (group (after (.pcWdog 7) (raisedAt 0x17B 1 rig7)) (.port 7)).level 11 = 2 ∧
    ((after (.pcWdog 7) (raisedAt 0x17B 1 rig7)).port 7).link.st = .fenced ∧
    (after (.pcWdog 7) (raisedAt 0x17B 1 rig7)).pins.faultN = false := by decide +kernel

-- Example after R549: the fifth mended read of one word of memory 44 is a hard fault; a spare row takes over, and 0x15C is raised.
theorem test_hard_fault :
    let d := rig.modMem 44 fun m => { m with track := [(0, 4, true)] }
    repairSrc 44 = 0x15C ∧ isRaised (after (.correctedRead 44 0) d) 0x15C = true ∧
    sparesLeft 44 (d.memSt 44) = 4 ∧ sparesLeft 44 ((after (.correctedRead 44 0) d).memSt 44) = 3 := by decide +kernel

-- Example after R559: a pass over one port has 30 + 16 + 8 + 12 + 4 = 70 slices.
theorem test_pass_slices : (passSlices 31).length = 70 := by decide

-- Example after R579: bin 101 at VP = 4.80 ns/m lies 1,403 cm from the pins; a change from 31.5 to 24.0 dB is +75 tenths.
theorem test_bin_distance : binCm { diagCfg := 0x5E05_3C36, linkCfg := 0 } 101 = 1403 := by decide
theorem test_peak_change : peakChange ((List.replicate 480 0xFFFF).set 101 384) ((List.replicate 480 0xFFFF).set 101 504) 101 = 75 := by
  decide

/-! ### Tables of the manual -/

-- R50: α^10 = α^3 + 1; the generator has degree 35 and is a codeword itself.
theorem test_field : gfPow 10 = 0b1001 := by decide
theorem test_generator : (rsGen 35).length = 35 ∧ rsChecks (1 :: (rsGen 35).reverse) = true := by decide +kernel

-- R437: the image example's CRC-32C (the Castagnoli check value 0xE3069283 of "123456789" is PRESUMED from the polynomial's name).
theorem test_crc32c : crc32c [0x31, 0x32, 0x33, 0x34, 0x35, 0x36, 0x37, 0x38, 0x39] = 0xE3069283 := by decide +kernel
theorem test_image : headerCode image0 = none := by decide +kernel

-- R30, R360: mode codes; R138: port state codes; R93: line mode codes.
theorem test_codes : Mode.run.code = 3 ∧ Mode.deep.code = 7 ∧ PortSt.retired.code = 7 ∧ LineMode.t1g.code = 7 := by decide

-- R429: registers at reset, by their offsets.
theorem test_reset_registers :
    State.reset.dev.clk.cfg = 0x803C_1400 ∧ State.reset.dev.pwr.cfg = 0x0064_000E ∧ State.reset.dev.sys.shrCfg = 0x6414_0A02 ∧
    (State.reset.dev.port 15).cfg.linkCfg = 0x0000_1470 ∧ (State.reset.dev.lane 19).txeq = 0x0000_4C08 := by decide +kernel

/-! ### Ill-formed operands -/

theorem test_wf_registerWrite :
    (Instr.registerWrite ⟨.pf0, false, 0⟩ 3 0).wf = false ∧ (Instr.registerWrite ⟨.sb, true, 0⟩ 4 0).wf = false ∧
    (Instr.registerWrite ⟨.pf0, true, 0⟩ 8 0).wf = true := by decide
theorem test_wf_rcRead : (Instr.rcRead ⟨.pf0, false, 0⟩ 16).wf = false ∧ (Instr.rcRead ⟨.pf0, false, 0⟩ 1).wf = true := by decide
theorem test_wf_preparationDone :
    (Instr.preparationDone 0 [] 0 0 (List.replicate 49 0)).wf = false ∧
    (Instr.preparationDone 0 [] 0 0 (List.replicate 50 0)).wf = true := by decide +kernel
theorem test_wf_downstreamTrainingDone :
    (Instr.downstreamTrainingDone 0 { trained 0 with ntap := 25 }).wf = false ∧
    (Instr.downstreamTrainingDone 0 { trained 0 with taps := [] }).wf = false ∧
    (Instr.downstreamTrainingDone 0 (trained 0)).wf = true := by decide
theorem test_wf_calRunEnd :
    (Instr.calRunEnd 0 0 0 (List.replicate 51 0)).wf = false ∧
    (Instr.calRunEnd 0 0 0 (List.replicate 50 0)).wf = true := by decide
theorem test_wf_ageMeasurement :
    (Instr.ageMeasurement (List.replicate 23 (0, 0))).wf = false ∧ (Instr.ageMeasurement (List.replicate 24 (0, 0))).wf = true := by decide
theorem test_wf_scrubVisit :
    (Instr.scrubVisit 0 479232 .clean).wf = false ∧ (Instr.scrubVisit 0 479231 .clean).wf = true ∧
    (Instr.scrubVisit 0 0 (.uncorrectable .firmware)).wf = false := by decide
theorem test_wf_correctedRead : (Instr.correctedRead 44 65536).wf = false ∧ (Instr.correctedRead 44 65535).wf = true := by decide
theorem test_wf_uncorrectableAccess :
    (Instr.uncorrectableAccess 44 65536 .pcLoad).wf = false ∧ (Instr.uncorrectableAccess 0 0 .pcFetch).wf = false ∧
    (Instr.uncorrectableAccess 44 65535 .pcLoad).wf = true := by decide
theorem test_wf_trackerWriteBack : (Instr.trackerWriteBack 44 65536).wf = false ∧ (Instr.trackerWriteBack 44 0).wf = true := by decide
theorem test_wf_substitutionComplete :
    (Instr.substitutionComplete 7 0 0).wf = false ∧ (Instr.substitutionComplete 0 0 0).wf = true := by decide
theorem test_wf_pageReloadDone : (Instr.pageReloadDone 7 true).wf = false ∧ (Instr.pageReloadDone 3 true).wf = true := by decide
theorem test_wf_privTestEnd :
    (Instr.privTestEnd 3 true 0 0 [(0, 0, 0)]).wf = false ∧ (Instr.privTestEnd 3 true 0 0 [(131, 4, 127)]).wf = false ∧
    (Instr.privTestEnd 3 true 0 0 [(131, 3, 127)]).wf = true := by decide
theorem test_illFormed_ignored :
    (match exec (.ageMeasurement []) (st rig) with | .next t => t == st rig | _ => false) = true := by decide +kernel

/-! ### Single steps -/

-- R429, R430: from reset, PORST_N released takes the device to BOOT and samples the straps.
theorem test_release_boots :
    (after (.porstNRelease ⟨0, 3, true, 5, false, true⟩ none) State.reset.dev).sys.mode = .boot ∧
    (after (.porstNRelease ⟨0, 3, true, 5, false, true⟩ none) State.reset.dev).clk.refAct = .refclk := by decide +kernel

-- R335: a doorbell value equal to the depth stops the ring with CAUSE 1.
theorem test_doorbell_at_depth : (after (.sqDoorbell .pf0 0 64) rig).host.pf0.sq[0].cause = 1 := by decide +kernel

-- R339, R346: NOP is complete in its ACCEPTED completion, which returns ECHO in RESULT0.
theorem test_nop_echo : (after (.nop hd 0xABCD) rig).out.any (isCompletion .pf0 7 0xFFFF 0 0 0xABCD 0) = true := by decide +kernel

-- R345: a port outside 0 to 15 is a bad parameter, with DETAIL 16.
theorem test_port_16 : (after (.portUp hd 16) rig).out.any (isCompletion .pf0 7 0xFFFF 0x0012 0 0 0) = true := by decide +kernel

-- R90: PORT_UP in RUN starts an attempt.
theorem test_port_up : ((after (.portUp hd 3) rig).port 3).link.st = .training := by decide +kernel

-- R247, R252: a block joins the upstream buffer.
theorem test_upstream_block :
    ((after (.upstreamBlock 0 (wire0 (fed 2))) (fed 2)).port 0).up.blocks.length = 1 := by decide +kernel

-- R394: a read takes a free lock, and only its owner frees it.
theorem test_lock_taken : lockOwner (after (.lockRead .sb 4) rig).acc 4 = 4 := by decide +kernel
theorem test_lock_kept : lockOwner (after (.lockRelease .pf1 4 0) (setLock rig 4 4)).acc 4 = 4 := by decide +kernel

-- R465: losing the active reference with the alternate not qualified is a trip.
theorem test_reference_trip : (after (.referenceLoss .xtal) rig).sys.mode = .safe := by decide +kernel

-- R524: a forced source reads live and is raised.
theorem test_forced_source : isLive (after (.fltForceWrite .pf0 3 1) rig) 0x030 = true := by decide +kernel

-- R617: CONFIRM that ends with no dual link takes LEAD with the next PEPOCH.
theorem test_takeover :
    (after .confirmExpiry (paired .confirm fun p => { p with heard := some 31 })).pair.st = .lead ∧
    (after .confirmExpiry (paired .confirm fun p => { p with heard := some 31 })).pair.pepoch = 0 := by decide +kernel

-- R280, R282: with an empty queue DT counts one tick.
theorem test_idle_tick : step (st rig) = .next (st { rig with dt := { rig.dt with dt := 1001 } }) := rfl

-- The table gives no row any bits: no word spells a command.
theorem test_no_word (w : Nat) : decodeTableWord 32 w = none := rfl

/-! ### The hypotheses of the claims can be met -/

theorem meets_stepRunsFront :
    (∃ (c : Instr) (rest : List Instr) (s : State), s.pending = c :: rest) :=
  ⟨.lpllLock, [.hpllLock], { dev := rig, pending := [.lpllLock, .hpllLock] }, rfl⟩

theorem meets_emptyQueueTicks :
    (∃ (s : State), s.pending = [] ∧ (s.dev.dt.running = false ∨ powered s.dev = false)) ∧
    (∃ (s : State), s.pending = [] ∧ s.dev.dt.running = true ∧ powered s.dev = true ∧ s.dev.clk.lpll = .locked ∧ s.dev.dt.adj
      = 0 ∧ s.dev.dt.slew = 0 ∧ 0 ≤ s.dev.dt.rest ∧ s.dev.dt.rest < 1000000000) :=
  ⟨⟨State.reset, by decide +kernel⟩,
   ⟨st rig, by decide +kernel⟩⟩

theorem meets_wellFormedCompletes :
    (∃ (c : Instr) (s : State), s.safe ∧ c.wf = false) :=
  ⟨.scrubVisit 0 (memBytes 0) .clean, st rig, by decide +kernel⟩

theorem meets_safeKept :
    (∃ (s t : State), s.safe ∧ step s = .next t) :=
  ⟨st rig, st { rig with dt := { rig.dt with dt := 1001 } }, ⟨by decide, rfl⟩⟩

theorem meets_endOfCommand :
    (∃ (s : State), s.safe) ∧
    (∃ (d : Dev), forcesDown d.sys.mode = false) ∧
    (∃ (d : Dev), (d.sys.mode = .run ∨ d.sys.mode = .reef)) :=
  ⟨⟨st rig, by decide +kernel⟩,
   ⟨rig, by decide +kernel⟩,
   ⟨inMode .reef, by decide +kernel⟩⟩

theorem meets_resets :
    (∃ (s t : State), t =
      { s with dev := { ({} : Dev) with boot := { flash := s.dev.boot.flash, otpSvn := s.dev.boot.otpSvn }, bist := { fused := s.dev.bist.fused }, host := { perst := s.dev.host.perst }, out := s.dev.out, free := s.dev.free } }) ∧
    (∃ (s : State), s.dev.sys.mode = .off) ∧
    (∃ (s : State), s.safe ∧ s.dev.sys.mode ≠ .off) ∧
    (∃ (s : State) (m : Master) (key : W16), powered s.dev = true ∧ (m = .mgr ∨ m = .pf0) ∧ key = 0x5A5A) ∧
    (∃ (s : State) (m : Master) (key : W16), powered s.dev = true ∧ s.safe ∧ (key ≠ 0x5A5A ∨ m = .pf1 ∨ m = .sb)) :=
  ⟨⟨State.reset, _, rfl⟩,
   ⟨State.reset, by decide +kernel⟩,
   ⟨st rig, by decide +kernel⟩,
   ⟨st rig, .pf0, 0x5A5A, by decide +kernel⟩,
   ⟨st rig, .pf1, 0x5A5A, by decide +kernel⟩⟩

theorem meets_clockStart :
    (∃ (s : State), s.safe ∧ s.dev.sys.mode = .boot ∧ s.dev.clk.priStarted = true ∧ s.dev.clk.lpll = .off ∧ s.dev.clk.refAct
      = primary s.dev ∧ fld s.dev.clk.lpllCfg 31 30 = 0) ∧
    (∃ (s : State), s.safe ∧ s.dev.sys.mode = .boot ∧ s.dev.clk.lpll = .acquire ∧ (firstCand s.dev = none ∨ firstCand s.dev =
      s.dev.clk.lpllIn)) ∧
    (∃ (s : State), s.safe ∧ s.dev.sys.mode = .boot ∧ s.dev.clk.lpll = .acquire ∧ firstCand s.dev ≠ none ∧ firstCand s.dev ≠
      s.dev.clk.lpllIn) ∧
    (∃ (s : State), s.safe ∧ s.dev.sys.mode = .boot ∧ s.dev.clk.lpll = .acquire ∧ s.dev.dt.running = false) ∧
    (∃ (s : State), s.safe ∧ s.dev.sys.mode = .boot ∧ s.dev.clk.lpll = .acquire ∧ (∀ n, (s.dev.port n).raster.startDue =
      false)) ∧
    (∃ (s : State), s.safe ∧ s.dev.sys.mode = .boot ∧ s.dev.clk.hpll = .acquire ∧ s.dev.clk.lpll = .locked) ∧
    (∃ (s : State) (m : Master), s.safe ∧ powered s.dev = true ∧ reachesAll m = false) ∧
    (∃ (s : State), s.safe ∧ powered s.dev = true ∧ s.dev.clk.lpll = .holdover ∧ s.dev.clk.holdTimer = true ∧
      s.dev.clk.refAct = primary s.dev ∧ s.dev.clk.priStarted = true ∧ s.dev.clk.priQual = true ∧ (group s.dev (.device
      1)).raised = 0) ∧
    (∃ (s : State), s.safe ∧ powered s.dev = true ∧ canResume s.dev = false) ∧
    (∃ (s : State), s.safe ∧ powered s.dev = true ∧ locksHold s.dev = false) ∧
    (∃ (s : State), s.safe ∧ powered s.dev = true ∧ locksHold s.dev = true ∧ bit s.dev.clk.cfg 31 = true ∧
      s.dev.sys.safeByFence = false ∧ s.dev.flt.halt.halted = false) ∧
    (∃ (s : State) (m : Master), s.safe ∧ powered s.dev = true ∧ reachesAll m = true ∧ canResume s.dev = true ∧
      s.dev.sys.safeByFence = false ∧ s.dev.flt.halt.halted = false) ∧
    (∃ (s : State), s.safe ∧ powered s.dev = true ∧ bit s.dev.clk.cfg 31 = false) ∧
    (∃ (s : State), s.safe ∧ powered s.dev = true ∧ (s.dev.clk.priQual = false ∨ s.dev.clk.refAct = primary s.dev)) ∧
    (∃ (s : State) (m : Master), s.safe ∧ powered s.dev = true ∧ reachesAll m = true ∧ s.dev.clk.priQual = true ∧
      s.dev.clk.refAct ≠ primary s.dev) ∧
    (∃ (s : State) (m : Master), s.safe ∧ powered s.dev = true ∧ reachesAll m = true ∧ s.dev.clk.refAct ≠ primary s.dev ∧
      s.dev.clk.priQual = false) ∧
    (∃ (s : State) (m : Master), s.safe ∧ powered s.dev = true ∧ reachesAll m = true ∧ (s.dev.clk.refAct = primary s.dev ∨
      s.dev.clk.priQual = true)) ∧
    (∃ (s : State) (m : Master), s.safe ∧ powered s.dev = true ∧ reachesAll m = true ∧ isRaised s.dev 0x012 = false) :=
  ⟨⟨st (inMode .boot (clkd (fun c => { c with lpll := .off, lpllCfg := 0 }))), by decide +kernel⟩,
   ⟨st (inMode .boot { clkd (fun c => { c with lpll := .acquire }) with dt := {} }), by decide +kernel⟩,
   ⟨st (inMode .boot (clkd (fun c => { c with lpll := .acquire, lpllCfg := 0x5C00_0000, pwQual := true }) (paired .off))), by
     decide +kernel⟩,
   ⟨st (inMode .boot { clkd (fun c => { c with lpll := .acquire }) with dt := {} }), by decide +kernel⟩,
   ⟨st (inMode .boot (clkd fun c => { c with lpll := .acquire })), by decide +kernel⟩,
   ⟨st (inMode .boot (clkd fun c => { c with hpll := .acquire })), by decide +kernel⟩,
   ⟨st rig, .sb, by decide +kernel⟩,
   ⟨st (clkd fun c => { c with lpll := .holdover, holdTimer := true }), by decide +kernel⟩,
   ⟨st rig, by decide +kernel⟩,
   ⟨st rig, by decide +kernel⟩,
   ⟨st { tripped with clk := { tripped.clk with cfg := 0x8000_0000 } }, by decide +kernel⟩,
   ⟨st calm, .mgr, by decide +kernel⟩,
   ⟨st (clkd fun c => { c with cfg := 0 }), by decide +kernel⟩,
   ⟨st rig, by decide +kernel⟩,
   ⟨st (clkd fun c => { c with refAct := .refclk }), .pf0, by decide +kernel⟩,
   ⟨st (clkd fun c => { c with refAct := .refclk, priQual := false }), .pf0, by decide +kernel⟩,
   ⟨st rig, .pf0, by decide +kernel⟩,
   ⟨st rig, .pf0, by decide +kernel⟩⟩

theorem meets_bootCourse :
    (∃ (s : State) (a p : FwImage), s.safe ∧ s.dev.sys.mode = .boot ∧ s.dev.clk.lpll = .locked ∧ s.dev.clk.hpll = .locked ∧
      s.dev.boot.verified = false ∧ s.dev.boot.noImage = false ∧ s.dev.boot.strap.bootsrc = 0 ∧ fwImage s.dev.boot.flash .mgr
      (bootRecord s.dev.boot.flash).mgrSlot = some a ∧ fwImage s.dev.boot.flash .pc (bootRecord s.dev.boot.flash).pcSlot =
      some p ∧ a.keyOk = true ∧ a.sigOk = true ∧ s.dev.boot.otpSvn ≤ a.svn ∧ p.keyOk = true ∧ p.sigOk = true ∧
      s.dev.boot.otpSvn ≤ p.svn) ∧
    (∃ (s : State), s.safe ∧ s.dev.sys.mode = .boot ∧ s.dev.clk.lpll = .locked ∧ s.dev.clk.hpll = .locked ∧
      s.dev.boot.verified = false ∧ s.dev.boot.noImage = false ∧ s.dev.boot.strap.bootsrc = 0 ∧ s.dev.boot.flash.mgrA = none
      ∧ s.dev.boot.flash.mgrB = none) ∧
    (∃ (s : State), s.dev.sys.mode = .boot ∧ s.dev.boot.verified = true ∧ s.dev.sys.mgrUp = false ∧ s.safe ∧ (lpllRuns
      s.dev.clk = false ∨ s.dev.clk.hpll ≠ .locked)) ∧
    (∃ (s : State), s.dev.sys.mode = .boot ∧ s.dev.boot.verified = true ∧ s.dev.sys.mgrUp = false ∧ lpllRuns s.dev.clk = true
      ∧ s.dev.clk.hpll = .locked ∧ s.dev.boot.strap.bootsrc = 3 ∧ devFenced s.dev = false ∧ s.dev.flt.halt.halted = false) ∧
    (∃ (s : State), s.dev.sys.mode = .boot ∧ s.dev.boot.verified = true ∧ s.dev.sys.mgrUp = false ∧ lpllRuns s.dev.clk = true
      ∧ s.dev.clk.hpll = .locked ∧ s.dev.boot.strap.bootsrc = 3 ∧ devFenced s.dev = true) ∧
    (∃ (s : State) (l : List Section), s.dev.sys.mode = .boot ∧ s.dev.boot.verified = true ∧ s.dev.sys.mgrUp = false ∧
      lpllRuns s.dev.clk = true ∧ s.dev.clk.hpll = .locked ∧ s.dev.boot.strap.bootsrc ≠ 3 ∧ validate
      { s.dev with sys := { s.dev.sys with mgrUp := true } } s.dev.boot.flash.config = .ok l ∧ devFenced (takeImage
      { s.dev with sys := { s.dev.sys with mgrUp := true } } s.dev.boot.flash.config l srcFlash) = false ∧ (takeImage
      { s.dev with sys := { s.dev.sys with mgrUp := true } } s.dev.boot.flash.config l srcFlash).flt.halt.halted = false) :=
  ⟨⟨st (booting { flash := { flash0 with mgrA := some fwGood, pcA := some fwGood } }), fwGood, fwGood, by decide +kernel⟩,
   ⟨st (booting {}), by decide +kernel⟩,
   ⟨st (booting { verified := true } { noMgr with clk := { rig.clk with hpll := .acquire } }), by decide +kernel⟩,
   ⟨st (booting { verified := true, strap := ⟨0, 3, false, 0, false, false⟩ }), by decide +kernel⟩,
   ⟨st (raisedAt 0x012 2 (booting { verified := true, strap := ⟨0, 3, false, 0, false, false⟩ })), by decide +kernel⟩,
   ⟨st (booting { verified := true, flash := { flash0 with config := image0 } }), sect0,
     by and_intros <;> first | decide +kernel | exact ok_of_isOk (by decide +kernel)⟩⟩

theorem meets_functionsStop :
    (∃ (s : State), s.safe ∧ powered s.dev = true) ∧
    (∃ (s : State), s.safe ∧ powered s.dev = true) ∧
    (∃ (s : State), s.safe ∧ s.dev.sys.mode = .run ∧ s.dev.avs.deepStep = 0) ∧
    (∃ (s : State), powered s.dev = true ∧ (anyRing s.dev.host.pf0 = true ∨ anyRing s.dev.host.pf1 = true) ∧ isLive s.dev
      0x050 = false) ∧
    (∃ (s : State), powered s.dev = true ∧ s.safe ∧ anyRing s.dev.host.pf0 = false ∧ anyRing s.dev.host.pf1 = false) :=
  ⟨⟨st rig, by decide +kernel⟩,
   ⟨st rig, by decide +kernel⟩,
   ⟨st { rig with host := { rig.host with perst := true } }, by decide +kernel⟩,
   ⟨st rig, by decide +kernel⟩,
   ⟨st { rig with host := {} }, by decide +kernel⟩⟩

theorem meets_doorbells :
    (∃ (s : State) (f : Fn) (k : Fin 16), s.safe ∧ powered s.dev = true ∧ (s.dev.fn f).sq[k.val].st ≠ .run) ∧
    (∃ (s : State) (f : Fn) (k : Fin 16) (v : W16), s.safe ∧ powered s.dev = true ∧ (s.dev.fn f).sq[k.val].st = .run ∧
      s.dev.sys.mgrUp = true ∧ v.toNat < ringDepth (s.dev.fn f).sq[k.val].cfg) ∧
    (∃ (s : State) (f : Fn) (k : Fin 16), s.safe ∧ powered s.dev = true ∧ (s.dev.fn f).sq[k.val].st = .run ∧ s.dev.sys.mgrUp
      = false) ∧
    (∃ (s : State) (f : Fn) (k : Fin 16) (v : W16), s.safe ∧ powered s.dev = true ∧ (s.dev.fn f).sq[k.val].st = .run ∧
      s.dev.sys.mgrUp = true ∧ ringDepth (s.dev.fn f).sq[k.val].cfg ≤ v.toNat) ∧
    (∃ (s : State) (f : Fn) (k : Fin 16), s.safe ∧ powered s.dev = true ∧ s.dev.sys.mgrUp = true ∧ (s.dev.fn f).cq[k.val].st
      ≠ .run) ∧
    (∃ (s : State) (f : Fn) (k : Fin 16) (v : W16), s.safe ∧ powered s.dev = true ∧ s.dev.sys.mgrUp = true ∧ (s.dev.fn
      f).cq[k.val].st = .run ∧ v.toNat < ringDepth (s.dev.fn f).cq[k.val].cfg ∧ (s.dev.fn f).cq[k.val].cons ≤ v ∧ v ≤
      (s.dev.fn f).cq[k.val].prod ∧ (s.dev.fn f).cq[k.val].prod.toNat < ringDepth (s.dev.fn f).cq[k.val].cfg) ∧
    (∃ (s : State) (f : Fn) (k : Fin 16) (v : W16), s.safe ∧ powered s.dev = true ∧ s.dev.sys.mgrUp = true ∧ (s.dev.fn
      f).cq[k.val].st = .run ∧ (ringDepth (s.dev.fn f).cq[k.val].cfg ≤ v.toNat ∨ (s.dev.fn f).cq[k.val].cons ≤ (s.dev.fn
      f).cq[k.val].prod ∧ (s.dev.fn f).cq[k.val].prod < v)) ∧
    (∃ (s : State) (f : Fn), s.safe ∧ powered s.dev = true ∧ (s.dev.fn f).ev.st ≠ .run) ∧
    (∃ (s : State) (f : Fn) (v : W16), s.safe ∧ powered s.dev = true ∧ (s.dev.fn f).ev.st = .run ∧ s.dev.sys.mgrUp = true ∧
      v.toNat < ringDepth (s.dev.fn f).ev.cfg ∧ (s.dev.fn f).ev.cons ≤ v ∧ v ≤ (s.dev.fn f).ev.prod ∧ (s.dev.fn
      f).ev.prod.toNat < ringDepth (s.dev.fn f).ev.cfg) ∧
    (∃ (s : State) (f : Fn), s.safe ∧ powered s.dev = true ∧ (s.dev.fn f).ev.st = .run ∧ s.dev.sys.mgrUp = false) ∧
    (∃ (s : State) (f : Fn) (v : W16), s.safe ∧ powered s.dev = true ∧ (s.dev.fn f).ev.st = .run ∧ s.dev.sys.mgrUp = true ∧
      ringDepth (s.dev.fn f).ev.cfg ≤ v.toNat) :=
  ⟨⟨st rig, .pf0, 1, by decide +kernel⟩,
   ⟨st rig, .pf0, 0, 63, by decide +kernel⟩,
   ⟨st noMgr, .pf0, 0, by decide +kernel⟩,
   ⟨st rig, .pf0, 0, 64, by decide +kernel⟩,
   ⟨st rig, .pf0, 15, by decide +kernel⟩,
   ⟨st (cq0 fun r => { r with prod := 63, cons := 60 }), .pf0, 0, 63, by decide +kernel⟩,
   ⟨st (cq0 fun r => { r with prod := 5, cons := 5 }), .pf0, 0, 6, by decide +kernel⟩,
   ⟨st (ev0 fun r => { r with st := .off }), .pf0, by decide +kernel⟩,
   ⟨st (ev0 fun r => { r with prod := 63, cons := 60 }), .pf0, 63, by decide +kernel⟩,
   ⟨st noMgr, .pf1, by decide +kernel⟩,
   ⟨st rig, .pf0, 64, by decide +kernel⟩⟩

theorem meets_hostRings :
    (∃ (s : State) (f : Fn) (kind : RingKind) (k : Fin 16) (cfg : W32), s.safe ∧ powered s.dev = true ∧ bit (s.dev.fn
      f).sq[k.val].cfg 31 = false ∧ bit (s.dev.fn f).cq[k.val].cfg 31 = false ∧ bit (s.dev.fn f).ev.cfg 31 = false ∧ kind =
      .sq ∧ fld cfg 19 16 ≤ 10) ∧
    (∃ (s : State) (f : Fn) (kind : RingKind) (k : Fin 16) (cfg : W32), s.safe ∧ powered s.dev = true ∧ bit (s.dev.fn
      f).sq[k.val].cfg 31 = false ∧ bit (s.dev.fn f).cq[k.val].cfg 31 = false ∧ bit (s.dev.fn f).ev.cfg 31 = false ∧ kind =
      .sq ∧ 10 < fld cfg 19 16) ∧
    (∃ (s : State) (f : Fn) (kind : RingKind) (k : Fin 16) (cfg : W32), s.safe ∧ powered s.dev = true ∧ bit (s.dev.fn
      f).sq[k.val].cfg 31 = false ∧ bit (s.dev.fn f).cq[k.val].cfg 31 = false ∧ bit (s.dev.fn f).ev.cfg 31 = false ∧ kind =
      .cq ∧ fld cfg 19 16 ≤ 10) ∧
    (∃ (s : State) (f : Fn) (kind : RingKind) (k : Fin 16) (cfg : W32), s.safe ∧ powered s.dev = true ∧ bit (s.dev.fn
      f).sq[k.val].cfg 31 = false ∧ bit (s.dev.fn f).cq[k.val].cfg 31 = false ∧ bit (s.dev.fn f).ev.cfg 31 = false ∧ kind =
      .cq ∧ 10 < fld cfg 19 16) ∧
    (∃ (s : State) (f : Fn) (kind : RingKind) (k : Fin 16) (cfg : W32), s.safe ∧ powered s.dev = true ∧ bit (s.dev.fn
      f).sq[k.val].cfg 31 = false ∧ bit (s.dev.fn f).cq[k.val].cfg 31 = false ∧ bit (s.dev.fn f).ev.cfg 31 = false ∧ kind =
      .ev ∧ fld cfg 19 16 ≤ 10) ∧
    (∃ (s : State) (f : Fn) (kind : RingKind) (k : Fin 16) (cfg : W32), s.safe ∧ powered s.dev = true ∧ bit (s.dev.fn
      f).sq[k.val].cfg 31 = false ∧ bit (s.dev.fn f).cq[k.val].cfg 31 = false ∧ bit (s.dev.fn f).ev.cfg 31 = false ∧ kind =
      .ev ∧ 10 < fld cfg 19 16) ∧
    (∃ (s : State) (kind : RingKind), s.safe ∧ powered s.dev = true ∧ kind = .sq) ∧
    (∃ (s : State) (kind : RingKind), s.safe ∧ powered s.dev = true ∧ kind = .cq) ∧
    (∃ (s : State) (kind : RingKind), s.safe ∧ powered s.dev = true ∧ kind = .ev) ∧
    (∃ (s : State) (f : Fn) (k : Fin 16), s.safe ∧ powered s.dev = true ∧ (s.dev.fn f).cq[k.val].sinceMsg = 0) ∧
    (∃ (s : State) (f : Fn) (k : Fin 16) (v : Fin 64), s.safe ∧ powered s.dev = true ∧ (s.dev.fn f).cq[k.val].sinceMsg ≠ 0 ∧
      fld (s.dev.fn f).cq[k.val].cfg 29 24 = v.val ∧ (s.dev.fn f).msix[v.val].masked = false) ∧
    (∃ (s : State) (f : Fn) (k : Fin 16) (v : Fin 64), s.safe ∧ powered s.dev = true ∧ (s.dev.fn f).cq[k.val].sinceMsg ≠ 0 ∧
      fld (s.dev.fn f).cq[k.val].cfg 29 24 = v.val ∧ (s.dev.fn f).msix[v.val].masked = true) :=
  ⟨⟨st { rig with host := {} }, .pf0, .sq, 0, 0x800A_0000, by decide +kernel⟩,
   ⟨st { rig with host := {} }, .pf0, .sq, 0, 0x800B_0000, by decide +kernel⟩,
   ⟨st { rig with host := {} }, .pf0, .cq, 0, 0x800A_0000, by decide +kernel⟩,
   ⟨st { rig with host := {} }, .pf0, .cq, 0, 0x800B_0000, by decide +kernel⟩,
   ⟨st { rig with host := {} }, .pf0, .ev, 0, 0x800A_0000, by decide +kernel⟩,
   ⟨st { rig with host := {} }, .pf0, .ev, 0, 0x800B_0000, by decide +kernel⟩,
   ⟨st rig, .sq, by decide +kernel⟩,
   ⟨st rig, .cq, by decide +kernel⟩,
   ⟨st rig, .ev, by decide +kernel⟩,
   ⟨st rig, .pf0, 0, by decide +kernel⟩,
   ⟨st (unmask (cq0 fun r => { r with sinceMsg := 1, cfg := 0xBF00_0000 })), .pf0, 0, 63, by decide +kernel⟩,
   ⟨st (cq0 fun r => { r with sinceMsg := 1 }), .pf0, 0, 0, by decide +kernel⟩⟩

theorem meets_eventLoss :
    (∃ (d : Dev) (f : Fn), ((d.fn f).ev.st ≠ .run ∨ ringFull (d.fn f).ev.cfg (d.fn f).ev.prod (d.fn f).ev.cons = true)) ∧
    (∃ (d : Dev) (f : Fn), (d.fn f).ev.st = .run ∧ ringFull (d.fn f).ev.cfg (d.fn f).ev.prod (d.fn f).ev.cons = false) :=
  ⟨⟨ev0 (fun r => { r with prod := 63 }), .pf0, by decide +kernel⟩,
   ⟨rig, .pf0, by decide +kernel⟩⟩

theorem meets_submissionEntries :
    (∃ (s : State) (x : CmdHdr), s.safe ∧ canFetch s.dev x.fn x.ring = false) ∧
    (∃ (s : State) (f : Fn) (k : Fin 16) (e : BitVec 512), s.safe ∧ powered s.dev = true ∧ canFetch s.dev f k = true ∧
      entryCmd e = none) ∧
    (∃ (s : State) (f : Fn) (k : Fin 16) (e : BitVec 512) (c : Cmd), s.safe ∧ powered s.dev = true ∧ canFetch s.dev f k =
      true ∧ entryCmd e = some c ∧ reservedBad e c = []) :=
  ⟨⟨st rig, { hd with ring := 1 }, by decide +kernel⟩,
   ⟨st rig, .pf0, 0, 0x7D, by decide +kernel⟩,
   ⟨st rig, .pf0, 0, 0, .nop 0, by decide +kernel⟩⟩

theorem meets_commandRefusals :
    (∃ (s : State) (x : CmdHdr) (c : Cmd) (status detail : W16), s.safe ∧ powered s.dev = true ∧ canFetch s.dev x.fn x.ring =
      true ∧ refusal s.dev x.fn [] c = some (status, detail)) ∧
    (∃ (p : W8), 16 ≤ p.toNat) ∧
    (∃ (d : Dev), d.sys.mode = .hold) ∧
    (∃ (d : Dev) (n : Fin 16), d.sys.mode = .safe ∧ (d.port n).link.st = .down ∧ linkOk (d.port n).cfg = true) ∧
    (∃ (d : Dev), d.sys.mode = .maintain ∧ d.bist.privOp.isSome = true) :=
  ⟨⟨st rig, hd, .portUp 16, 0x0012, 16, by decide +kernel⟩,
   ⟨16, by decide +kernel⟩,
   ⟨inMode .hold, by decide +kernel⟩,
   ⟨inMode .safe, 0, by decide +kernel⟩,
   ⟨inMode .maintain { rig with bist := { rig.bist with privOp := some 5 } }, by decide +kernel⟩⟩

theorem meets_longAccepted :
    (∃ (s : State) (x : CmdHdr) (c : Cmd), takes s x c = true ∧ isShort c = false ∧ s.dev.host.ops.length < 65535 ∧
      s.dev.host.lastHandle ≠ 0xFFFF) :=
  ⟨st rig, hd, .portUp 0, by decide +kernel⟩

theorem meets_shortCommands :
    (∃ (s : State) (x : CmdHdr) (echo : W32), takes s x (.nop echo) = true) ∧
    (∃ (s : State) (x : CmdHdr) (n : Fin 16), takes s x (.portStatus (BitVec.ofNat 8 n.val)) = true) ∧
    (∃ (s : State) (x : CmdHdr) (h : W16), takes s x (.cancel h) = true ∧ findOp s.dev h = none) ∧
    (∃ (s : State) (x : CmdHdr) (h : W16), takes s x (.cancel h) = true ∧ h ≠ 0xFFFF ∧ (∀ e ∈ s.dev.hal.cal, e.handle = h →
      entryTick s.dev e ≠ some s.dev.dt.dt) ∧ (∃ o ∈ s.dev.host.ops, findOp s.dev h = some o ∧ o.fn = x.fn ∧ o.final = none ∧
      (match o.cmd with | .schedule .. => true | _ => false) = true)) :=
  ⟨⟨st rig, hd, 5, by decide +kernel⟩,
   ⟨st rig, hd, 0, by decide +kernel⟩,
   ⟨st rig, hd, 5, by decide +kernel⟩,
   ⟨st (withOp (.schedule 3 6 0 1 0 0)), hd, 5, by decide +kernel⟩⟩

theorem meets_hostServices :
    (∃ (s : State) (x : CmdHdr) (src : W16), takes s x (.faultAck src) = true ∧ src ≠ 0xFFFF ∧ ackable s.dev (src.setWidth
      10) = true) ∧
    (∃ (s : State) (x : CmdHdr) (src : W16), takes s x (.faultAck src) = true ∧ src ≠ 0xFFFF ∧ ackable s.dev (src.setWidth
      10) = false) ∧
    (∃ (s : State) (x : CmdHdr) (src : W16) (lvl : W8), takes s x (.faultForce src lvl) = true ∧ sparesLane (src.setWidth 10)
      = false ∧ twinOcc s.dev (src.setWidth 10) true = none) ∧
    (∃ (s : State) (x : CmdHdr) (src : W16) (lvl : W8), takes s x (.faultForce src lvl) = true ∧ sparesLane (src.setWidth 10)
      = false ∧ (twinOcc s.dev (src.setWidth 10) true).isSome = true) ∧
    (∃ (s : State) (x : CmdHdr) (src : W16) (lvl : W8), takes s x (.faultForce src lvl) = true ∧ sparesLane (src.setWidth 10)
      = false ∧ (∀ o ∈ s.dev.flt.hist, sameTick s.dev o = false)) ∧
    (∃ (s : State) (x : CmdHdr) (n : Fin 16) (j : W8) (period : W16) (addr : W64), takes s x (.atticSetup (BitVec.ofNat 8
      n.val) j period addr) = true ∧ (s.dev.port n).attic.skipped = 0 ∧ j = 0) ∧
    (∃ (s : State) (x : CmdHdr) (n : Fin 16) (j : W8) (period : W16) (addr : W64), takes s x (.atticSetup (BitVec.ofNat 8
      n.val) j period addr) = true ∧ (s.dev.port n).attic.skipped = 0 ∧ j ≠ 0) ∧
    (∃ (s : State) (x : CmdHdr) (addr : W64) (size : W32), takes s x (.dumpSetup size addr) = true) :=
  ⟨⟨st (raisedAt 0x010 1), hd, 0x010, by decide +kernel⟩,
   ⟨st rig, hd, 0x010, by decide +kernel⟩,
   ⟨st rig, hd, 0x010, 3, by decide +kernel⟩,
   ⟨st (occd { src := 0x010, level := 2 }), hd, 0x010, 2, by decide +kernel⟩,
   ⟨st rig, hd, 0x010, 2, by decide +kernel⟩,
   ⟨st rig, hd, 0, 0, 0, 0, by decide +kernel⟩,
   ⟨st rig, hd, 0, 24, 1, 0, by decide +kernel⟩,
   ⟨st rig, hd, 0x100000000, 65536, by decide +kernel⟩⟩

theorem meets_portCommands :
    (∃ (s : State) (x : CmdHdr) (n : Fin 16), takes s x (.portUp (BitVec.ofNat 8 n.val)) = true ∧ (s.dev.port n).link.st =
      .down ∧ s.dev.pwr.padPort = 0 ∧ s.dev.pair.st ≠ .join) ∧
    (∃ (s : State) (x : CmdHdr) (n : Fin 16), takes s x (.portDown (BitVec.ofNat 8 n.val)) = true ∧ announces s.dev n =
      false) ∧
    (∃ (s : State) (x : CmdHdr) (n : Fin 16), takes s x (.portDown (BitVec.ofNat 8 n.val)) = true ∧ announces s.dev n = true) ∧
    (∃ (s : State) (x : CmdHdr) (n : Fin 16), takes s x (.portIsolate (BitVec.ofNat 8 n.val)) = true ∧ announces s.dev n =
      false ∧ ((s.dev.port n).link.st = .fenced → (s.dev.port n).link.fenceTick ≠ some s.dev.dt.dt)) ∧
    (∃ (s : State) (x : CmdHdr) (n : Fin 16), takes s x (.portIsolate (BitVec.ofNat 8 n.val)) = true ∧ announces s.dev n =
      false ∧ (s.dev.port n).link.st = .fenced ∧ s.dev.dt.running = true ∧ (s.dev.port n).link.fenceTick = some s.dev.dt.dt) ∧
    (∃ (s : State) (x : CmdHdr) (n : Fin 16), takes s x (.portIsolate (BitVec.ofNat 8 n.val)) = true ∧ announces s.dev n =
      true) ∧
    (∃ (s : State) (x : CmdHdr) (n : Fin 16) (h : W16) (o : Op) (c : Cmd), (c = .portDown (BitVec.ofNat 8 n.val) ∨ c =
      .portIsolate (BitVec.ofNat 8 n.val)) ∧ takes s x c = true ∧ findOp s.dev h = some o ∧ o ∈ s.dev.host.ops ∧ o.cmd =
      .portUp (BitVec.ofNat 8 n.val) ∧ o.final = none) :=
  ⟨⟨st rig, hd, 0, by decide +kernel⟩,
   ⟨st (linked .up), hd, 0, by decide +kernel⟩,
   ⟨st bundled, hd, 0, by decide +kernel⟩,
   ⟨st rig, hd, 0, by decide +kernel⟩,
   ⟨st (linked .fenced (atP (linkP fun l => { l with fenceTick := some 1000 }))), hd, 0, by decide +kernel⟩,
   ⟨st bundled, hd, 0, by decide +kernel⟩,
   ⟨st (withOp (.portUp 0) (linked .training)), hd, 0, 5,
     { handle := 5, fn := .pf0, ring := 0, cq := 0, tag := 7, cmd := .portUp 0 }, .portDown 0, by decide +kernel⟩⟩

theorem meets_portServices :
    (∃ (s : State) (x : CmdHdr) (n : Fin 16) (w : Vector W32 8), takes s x (.portConfig (BitVec.ofNat 8 n.val) 8 w) = true ∧
      (s.dev.port n).attic.dmaHalt = false) ∧
    (∃ (s : State) (x : CmdHdr) (n : Fin 16) (type len : W8) (payload : BitVec 352), takes s x (.oamSend (BitVec.ofNat 8
      n.val) type len payload) = true) ∧
    (∃ (s : State) (x : CmdHdr) (n : Fin 16), takes s x (.diagTdr (BitVec.ofNat 8 n.val)) = true) ∧
    (∃ (s : State) (x : CmdHdr) (n : Fin 16) (addr : W64), takes s x (.diagSignature (BitVec.ofNat 8 n.val) 0 addr) = true ∧
      (s.dev.port n).pc.up = true) ∧
    (∃ (s : State) (x : CmdHdr) (n : Fin 16) (addr : W64), takes s x (.diagSignature (BitVec.ofNat 8 n.val) 1 addr) = true) ∧
    (∃ (s : State) (x : CmdHdr) (n : Fin 16) (addr : W64), takes s x (.countersRead (BitVec.ofNat 8 n.val) 0 addr) = true ∧
      (s.dev.port n).pc.up = true) :=
  ⟨⟨st rig, hd, 0, Vector.replicate 8 0, by decide +kernel⟩,
   ⟨st bundled, hd, 0, 1, 44, 0, by decide +kernel⟩,
   ⟨st (linked .isolated), hd, 0, by decide +kernel⟩,
   ⟨st bundled, hd, 0, 0, by decide +kernel⟩,
   ⟨st bundled, hd, 0, 0, by decide +kernel⟩,
   ⟨st rig, hd, 0, 0, by decide +kernel⟩⟩

theorem meets_actionCommands :
    (∃ (s : State) (x : CmdHdr) (n : Fin 16) (src : W8) (len : W32) (addr : W64), takes s x (.capture (BitVec.ofNat 8 n.val)
      src 1 len addr) = true ∧ len ≠ 0) ∧
    (∃ (s : State) (x : CmdHdr) (ports : W16) (k : Fin 16), takes s x (.calRun ports) = true ∧ bit ports k.val = true) ∧
    (∃ (s : State) (x : CmdHdr) (ports : W16) (k : Fin 16), takes s x (.calRun ports) = true ∧ bit ports k.val = false) ∧
    (∃ (s : State) (x : CmdHdr) (ports : W16) (tests : W32), takes s x (.bistRun 2 ports tests) = true ∧ tests ≠ 0) ∧
    (∃ (s : State) (x : CmdHdr) (ports rep : W16) (trig a : W8) (time : W64) (arg : W32), takes s x (.schedule trig a ports
      rep time arg) = true) ∧
    (∃ (s : State) (x : CmdHdr) (n : Fin 16) (m : Fin 20), takes s x (.laneSpare (BitVec.ofNat 8 n.val) (BitVec.ofNat 8
      m.val)) = true ∧ (s.dev.port n).lane = m ∧ (s.dev.port n).attic.dmaHalt = false) ∧
    (∃ (s : State) (x : CmdHdr) (n : Fin 16) (m : Fin 20), takes s x (.laneSpare (BitVec.ofNat 8 n.val) (BitVec.ofNat 8
      m.val)) = true ∧ (s.dev.port n).lane ≠ m ∧ (s.dev.lane m).rx ≠ .locked) :=
  ⟨⟨st bundled, hd, 0, 0, 8192, 0, by decide +kernel⟩,
   ⟨st bundled, hd, 1, 0, by decide +kernel⟩,
   ⟨st bundled, hd, 1, 1, by decide +kernel⟩,
   ⟨st (inMode .maintain), hd, 0, 1, by decide +kernel⟩,
   ⟨st rig, hd, 0, 1, 3, 6, 0, 0, by decide +kernel⟩,
   ⟨st rig, hd, 0, 0, by decide +kernel⟩,
   ⟨st rig, hd, 0, 16, by decide +kernel⟩⟩

theorem meets_imageAndTimeCommands :
    (∃ (s : State) (x : CmdHdr) (offset len : W32) (addr : W64), takes s x (.configLoad offset len addr) = true) ∧
    (∃ (s : State) (x : CmdHdr) (offset len : W32) (addr : W64) (i last : W8), takes s x (.fwStage i last offset len addr) =
      true) ∧
    (∃ (s : State) (x : CmdHdr) (l : List Section), takes s x .configCommit = true ∧ validate s.dev (heldFrom 0
      s.dev.cfg.image) = .ok l ∧ persists (heldFrom 0 s.dev.cfg.image) = false) ∧
    (∃ (s : State) (x : CmdHdr) (l : List Section), takes s x .configCommit = true ∧ validate s.dev (heldFrom 0
      s.dev.cfg.image) = .ok l ∧ persists (heldFrom 0 s.dev.cfg.image) = true) ∧
    (∃ (s : State) (x : CmdHdr) (l : List Section), takes s x .configCommit = true ∧ validate s.dev (heldFrom 0
      s.dev.cfg.image) = .ok l ∧ s.dev.sys.mode = .hold ∧ (∀ y ∈ l, y.type ≠ 1)) ∧
    (∃ (s : State) (x : CmdHdr), takes s x .configCommit = true ∧ s.dev.cfg.image = []) ∧
    (∃ (s : State) (x : CmdHdr), takes s x (.fwActivate 1) = true ∧ accepted s.dev (fwImage s.dev.boot.flash .mgr
      (inactiveSlot s.dev .mgr)) = true ∧ (bootRecord s.dev.boot.flash).count ≠ 0xFFFFFFFF) ∧
    (∃ (s : State) (x : CmdHdr) (c v : W64), takes s x (.timeSet 0 c v) = true) ∧
    (∃ (s : State) (x : CmdHdr) (c v : W64), takes s x (.timeSet 3 c v) = true) ∧
    (∃ (s : State) (x : CmdHdr) (r : RasterParams), takes s x (.rasterSet r) = true) ∧
    (∃ (s : State) (x : CmdHdr), takes s x (.sleep 0) = true ∧ (wakeNow s.dev).isSome = true) ∧
    (∃ (s : State) (x : CmdHdr), takes s x (.sleep 0) = true ∧ wakeNow s.dev = none) :=
  ⟨⟨st rig, hd, 0, 48, 0, by decide +kernel⟩,
   ⟨st rig, hd, 0, 4096, 0, 0, 0, by decide +kernel⟩,
   ⟨st (imaged image0), hd, sect0, ⟨by decide +kernel, ok_of_isOk (by decide +kernel), by decide +kernel⟩⟩,
   ⟨st (imaged image1), hd, sect0, ⟨by decide +kernel, ok_of_isOk (by decide +kernel), by decide +kernel⟩⟩,
   ⟨st (inMode .hold (imaged image0)), hd, sect0, ⟨by decide +kernel, ok_of_isOk (by decide +kernel), by decide +kernel⟩⟩,
   ⟨st rig, hd, by decide +kernel⟩,
   ⟨st (inMode .maintain { rig with boot := { rig.boot with flash := { flash0 with mgrB := some fwGood } } }), hd, by
     decide +kernel⟩,
   ⟨st { rig with dt := { rig.dt with caps := [900] } }, hd, 900, 1000, by decide +kernel⟩,
   ⟨st { rig with dt := { rig.dt with caps := [900] } }, hd, 900, 0, by decide +kernel⟩,
   ⟨st rig, hd,
     { lp := 0x0064_0000, lines := 2, first := 0, last := 1, lockSrc := 0, holdFrames := 60, frame0 := 0, anchor := 0 }, by
     decide +kernel⟩,
   ⟨st { rig with sys := { rig.sys with wakeAt := some (1000, .sideband, false) } }, hd, by decide +kernel⟩,
   ⟨st rig, hd, by decide +kernel⟩⟩

theorem meets_operationLife :
    (∃ (s : State) (o : Op) (n : Fin 16), s.safe ∧ powered s.dev = true ∧ s.dev.sys.mgrUp = true ∧ findOp s.dev o.handle =
      some o ∧ o.started = false ∧ o.final = none ∧ fencedBy s.dev o.fn o.ring o.order = false ∧ o.cmd = .diagTdr
      (BitVec.ofNat 8 n.val) ∧ s.dev.sys.mode ≠ .hold ∧ (s.dev.port n).link.st = .isolated) ∧
    (∃ (s : State) (o : Op) (n : Fin 16), s.safe ∧ powered s.dev = true ∧ s.dev.sys.mgrUp = true ∧ findOp s.dev o.handle =
      some o ∧ o.started = false ∧ o.final = none ∧ fencedBy s.dev o.fn o.ring o.order = false ∧ o.cmd = .portUp
      (BitVec.ofNat 8 n.val) ∧ trainMode s.dev = true ∧ linkOk (s.dev.port n).cfg = true ∧ (s.dev.port n).link.st = .down ∧
      s.dev.pwr.padPort = 0 ∧ s.dev.pair.st ≠ .join) ∧
    (∃ (s : State) (o : Op) (n : Fin 16) (type len : W8) (payload : BitVec 352), s.safe ∧ powered s.dev = true ∧
      s.dev.sys.mgrUp = true ∧ findOp s.dev o.handle = some o ∧ o.started = false ∧ o.final = none ∧ fencedBy s.dev o.fn
      o.ring o.order = false ∧ o.cmd = .oamSend (BitVec.ofNat 8 n.val) type len payload ∧ s.dev.sys.mode ≠ .hold ∧
      (s.dev.port n).link.st = .up ∧ (s.dev.port n).link.mode.gletik = true) ∧
    (∃ (s : State) (o : Op) (detail : W16), s.safe ∧ powered s.dev = true ∧ s.dev.sys.mgrUp = true ∧ findOp s.dev o.handle =
      some o ∧ o.started = false ∧ o.final = none ∧ fencedBy s.dev o.fn o.ring o.order = false ∧ stateBad s.dev o.cmd = some
      detail) ∧
    (∃ (s : State) (o : Op), s.safe ∧ powered s.dev = true ∧ s.dev.sys.mgrUp = true ∧ findOp s.dev o.handle = some o ∧
      o.started = false ∧ fencedBy s.dev o.fn o.ring o.order = true) ∧
    (∃ (s : State) (o : Op) (r : OpResult), s.safe ∧ powered s.dev = true ∧ s.dev.sys.mgrUp = true ∧ findOp s.dev o.handle =
      some o ∧ o.final = some r ∧ bit (s.dev.fn o.fn).cq[o.cq.val].cfg 31 = true ∧ cqRoom (s.dev.fn o.fn).cq[o.cq.val] =
      true) ∧
    (∃ (s : State) (o : Op) (r : OpResult), s.safe ∧ powered s.dev = true ∧ s.dev.sys.mgrUp = true ∧ findOp s.dev o.handle =
      some o ∧ o.final = some r ∧ bit (s.dev.fn o.fn).cq[o.cq.val].cfg 31 = true ∧ cqRoom (s.dev.fn o.fn).cq[o.cq.val] =
      false) ∧
    (∃ (s : State) (o : Op) (r : OpResult), s.safe ∧ powered s.dev = true ∧ s.dev.sys.mgrUp = true ∧ findOp s.dev o.handle =
      some o ∧ o.final = some r ∧ bit (s.dev.fn o.fn).cq[o.cq.val].cfg 31 = false) ∧
    (∃ (s : State) (o : Op), s.safe ∧ powered s.dev = true ∧ findOp s.dev o.handle = some o ∧ s.dev.sys.mgrUp = true ∧
      o.final = none ∧ (match o.cmd with | .laneSpare .. => false | _ => true) = true) ∧
    (∃ (s : State) (o : Op), s.safe ∧ powered s.dev = true ∧ findOp s.dev o.handle = some o ∧ s.dev.sys.mgrUp = true ∧
      o.final = none ∧ (match o.cmd with | .portUp _ | .configCommit | .fwActivate _ => true | _ => false) = true) ∧
    (∃ (s : State) (o : Op), s.safe ∧ powered s.dev = true ∧ findOp s.dev o.handle = some o ∧ s.dev.sys.mgrUp = true ∧
      o.final = none ∧ (match o.cmd with | .timeSet .. => true | _ => false) = true ∧ (s.dev.dt.running = false ∨ o.deadline
      ≤ s.dev.dt.dt)) ∧
    (∃ (s : State) (o : Op), s.safe ∧ powered s.dev = true ∧ findOp s.dev o.handle = some o ∧ s.dev.sys.mgrUp = true ∧
      o.final = none ∧ (match o.cmd with | .schedule .. => true | _ => false) = true ∧ o.handle ≠ 0xFFFF) ∧
    (∃ (s : State) (o : Op), s.safe ∧ powered s.dev = true ∧ findOp s.dev o.handle = some o ∧ (o.final.isSome = true ∨
      s.dev.sys.mgrUp = false)) :=
  ⟨⟨st (withOps [{ op5 (.diagTdr 0) with started := false }] (linked .isolated)), { op5 (.diagTdr 0) with started := false }, 0,
  by decide +kernel⟩,
   ⟨st (withOps [{ op5 (.portUp 0) with started := false }]), { op5 (.portUp 0) with started := false }, 0, by
     decide +kernel⟩,
   ⟨st (withOps [{ op5 (.oamSend 0 1 4 0) with started := false }] up0), { op5 (.oamSend 0 1 4 0) with started := false }, 0,
     1, 4, 0, by decide +kernel⟩,
   ⟨st (withOps [{ op5 (.portDown 0) with started := false }]), { op5 (.portDown 0) with started := false }, (stateBad rig
     (.portDown 0)).getD 1, by decide +kernel⟩,
   ⟨st (withOps [op5 (.portUp 0), { op5 .configCommit with handle := 6, started := false, order := 1 }]),
     { op5 .configCommit with handle := 6, started := false, order := 1 }, by decide +kernel⟩,
   ⟨st (withOps [opEnd]), opEnd, { status := 0 }, by decide +kernel⟩,
   ⟨st (withOps [opEnd] (cq0 fun r => { r with prod := 63 })), opEnd, { status := 0 }, by decide +kernel⟩,
   ⟨st (withOps [opEnd] (cq0 fun r => { r with cfg := 0 })), opEnd, { status := 0 }, by decide +kernel⟩,
   ⟨st (withOps [op5 .configCommit]), op5 .configCommit, by decide +kernel⟩,
   ⟨st (withOps [op5 .configCommit]), op5 .configCommit, by decide +kernel⟩,
   ⟨st (withOps [op5 (.timeSet 1 0 0)]), op5 (.timeSet 1 0 0), by decide +kernel⟩,
   ⟨st (withOps [opS]), opS, by decide +kernel⟩,
   ⟨st (withOps [opEnd]), opEnd, by decide +kernel⟩⟩

theorem meets_failedBufferRead :
    (∃ (s : State) (o : Op) (image last port : W8) (offset len : W32) (addr : W64), s.safe ∧ powered s.dev = true ∧
      s.dev.sys.mgrUp = true ∧ findOp s.dev o.handle = some o ∧ o.final = none ∧ o.started = true ∧ o.left = 0 ∧ (o.cmd =
      .configLoad offset len addr ∨ o.cmd = .fwStage image last offset len addr ∨ o.cmd = .diagSignature port 1 addr)) :=
  ⟨st (withOps [op5 (.configLoad 0 48 0)]), op5 (.configLoad 0 48 0), 0, 0, 0, 0, 48, 0, by decide +kernel⟩

theorem meets_buffersAndFlash :
    (∃ (s : State) (o : Op) (bytes : List W8) (offset len : W32) (addr : W64), s.safe ∧ powered s.dev = true ∧
      s.dev.sys.mgrUp = true ∧ findOp s.dev o.handle = some o ∧ o.final = none ∧ o.started = true ∧ o.cmd = .configLoad
      offset len addr ∧ o.left = 0 ∧ bytes.length = len.toNat) ∧
    (∃ (s : State) (o : Op), s.safe ∧ powered s.dev = true ∧ s.dev.sys.mgrUp = true ∧ findOp s.dev o.handle = some o ∧
      o.final = none ∧ o.started = true ∧ o.cmd = .configCommit ∧ s.dev.cfg.persistOp = some o.handle) ∧
    (∃ (s : State) (o : Op) (image : W8) (offset len : W32) (addr : W64), s.safe ∧ powered s.dev = true ∧ s.dev.sys.mgrUp =
      true ∧ findOp s.dev o.handle = some o ∧ o.final = none ∧ o.started = true ∧ o.cmd = .fwStage image 0 offset len addr ∧
      o.left = 1 ∧ s.dev.cfg.persistOp = none ∧ (∀ x ∈ s.dev.host.ops, x.left = 1 → x = o)) ∧
    (∃ (s : State), s.safe ∧ powered s.dev = true ∧ s.dev.cfg.persistOp = none ∧ (∀ x ∈ s.dev.host.ops, x.left ≠ 1) ∧
      s.dev.flt.halt.flashing.isSome = true) ∧
    (∃ (s : State), s.safe ∧ powered s.dev = true ∧ s.dev.cfg.persistOp = none ∧ (∀ x ∈ s.dev.host.ops, x.left ≠ 1) ∧
      s.dev.flt.halt.flashing = none) :=
  ⟨⟨st (withOps [op5 (.configLoad 0 48 0)]), op5 (.configLoad 0 48 0), image0, 0, 48, 0, by decide +kernel⟩,
   ⟨st { withOps [op5 .configCommit] with cfg := { rig.cfg with persistOp := some 5 } }, op5 .configCommit, by
     decide +kernel⟩,
   ⟨st (withOps [{ op5 (.fwStage 0 0 0 64 0) with left := 1 }]), { op5 (.fwStage 0 0 0 64 0) with left := 1 }, 0, 0, 64, 0,
     by decide +kernel⟩,
   ⟨st { rig with flt := { rig.flt with halt := { rig.flt.halt with flashing := some [1] } } }, by decide +kernel⟩,
   ⟨st rig, by decide +kernel⟩⟩

theorem meets_reservedAccesses :
    (∃ (s : State) (m : Master) (o r : Nat), s.safe ∧ powered s.dev = true ∧ o % 4 = 0 ∧ target s.dev m false o = .reg r ∧
      regValue s.dev m (place r) = none) ∧
    (∃ (s : State) (o : Nat), s.safe ∧ powered s.dev = true ∧ o % 4 = 0 ∧ ((0x1000 ≤ o ∧ o < 0x4000) ∨ 0x6000 ≤ o)) ∧
    (∃ (s : State) (o : Nat), s.safe ∧ powered s.dev = true ∧ o % 4 = 0 ∧ (0x2000 ≤ o ∨ (0x1000 ≤ o ∧
      s.dev.boot.strap.sbSecure = false))) :=
  ⟨⟨st rig, .mgr, 0x0FFC, 0x0FFC, by decide +kernel⟩,
   ⟨st rig, 0x3FFC, by decide +kernel⟩,
   ⟨st rig, 0x1000, by decide +kernel⟩⟩

theorem meets_registerAccess :
    (∃ (s : State) (m : Master) (o size : Nat), s.safe ∧ powered s.dev = true ∧ (m = .mgr ∨ m = .pf0) ∧ (size = 1 ∨ size = 2)
      ∧ o % 4 + size ≤ 4 ∧ (regValue s.dev m (place (o / 4 * 4))).isSome = true ∧ (s.dev.acc.rdOff || s.dev.acc.wrOff ||
      s.dev.acc.partialWr) = false) ∧
    (∃ (s : State) (m : Master) (o size : Nat), s.safe ∧ powered s.dev = true ∧ (m = .mgr ∨ m = .pf0) ∧ (size = 1 ∨ size = 2)
      ∧ o % 4 + size ≤ 4 ∧ (regValue s.dev m (place (o / 4 * 4))).isSome = true ∧ (s.dev.acc.rdOff || s.dev.acc.wrOff ||
      s.dev.acc.partialWr) = true) ∧
    (∃ (s : State) (m : Master), s.safe ∧ powered s.dev = true ∧ (m = .mgr ∨ m = .pf0) ∧ s.dev.clk.coreSrc ≠ 2) ∧
    (∃ (s : State) (o : BitVec 22), s.safe ∧ powered s.dev = true ∧ forcesDown s.dev.sys.mode = false ∧ (o = 0xC000 ∨ o =
      0xE020 ∨ o = 0xE030) ∧ bit (group s.dev (.device 0)).force 0 = false ∧ s.dev.acc.parFrozen = false ∧ s.dev.acc.parCount
      ≠ 255 ∧ s.dev.acc.parWait = [] ∧ stored (.pwr 0) s.dev.pwr.cfg = s.dev.pwr.cfg ∧ stored (.hal 0x20) s.dev.hal.fsyncCfg
      = s.dev.hal.fsyncCfg ∧ stored (.hal 0x30) s.dev.hal.calCfg = s.dev.hal.calCfg ∧ o ≠ 0xC000) ∧
    (∃ (s : State) (o : BitVec 22), s.safe ∧ powered s.dev = true ∧ forcesDown s.dev.sys.mode = false ∧ (o = 0xC000 ∨ o =
      0xE020 ∨ o = 0xE030) ∧ bit (group s.dev (.device 0)).force 0 = false ∧ s.dev.acc.parFrozen = false ∧ s.dev.acc.parCount
      ≠ 255 ∧ s.dev.acc.parWait = [] ∧ stored (.pwr 0) s.dev.pwr.cfg = s.dev.pwr.cfg ∧ stored (.hal 0x20) s.dev.hal.fsyncCfg
      = s.dev.hal.fsyncCfg ∧ stored (.hal 0x30) s.dev.hal.calCfg = s.dev.hal.calCfg ∧ o ≠ 0xE020) ∧
    (∃ (s : State) (o : BitVec 22), s.safe ∧ powered s.dev = true ∧ forcesDown s.dev.sys.mode = false ∧ (o = 0xC000 ∨ o =
      0xE020 ∨ o = 0xE030) ∧ bit (group s.dev (.device 0)).force 0 = false ∧ s.dev.acc.parFrozen = false ∧ s.dev.acc.parCount
      ≠ 255 ∧ s.dev.acc.parWait = [] ∧ stored (.pwr 0) s.dev.pwr.cfg = s.dev.pwr.cfg ∧ stored (.hal 0x20) s.dev.hal.fsyncCfg
      = s.dev.hal.fsyncCfg ∧ stored (.hal 0x30) s.dev.hal.calCfg = s.dev.hal.calCfg ∧ o ≠ 0xE030) ∧
    (∃ (s : State) (o : BitVec 22), s.safe ∧ powered s.dev = true ∧ forcesDown s.dev.sys.mode = false ∧ (o = 0xC000 ∨ o =
      0xE020 ∨ o = 0xE030) ∧ bit (group s.dev (.device 0)).force 0 = false ∧ s.dev.acc.parFrozen = false ∧ s.dev.acc.parCount
      ≠ 255 ∧ s.dev.acc.parWait = [] ∧ stored (.pwr 0) s.dev.pwr.cfg = s.dev.pwr.cfg ∧ stored (.hal 0x20) s.dev.hal.fsyncCfg
      = s.dev.hal.fsyncCfg ∧ stored (.hal 0x30) s.dev.hal.calCfg = s.dev.hal.calCfg ∧ s.dev.sys.mgrUp = true) ∧
    (∃ (s : State) (o : BitVec 22), s.safe ∧ powered s.dev = true ∧ forcesDown s.dev.sys.mode = false ∧ (setupFields (place
      o.toNat)).isSome = false) ∧
    (∃ (s : State) (v : W32), s.safe ∧ powered s.dev = true ∧ forcesDown s.dev.sys.mode = false ∧ s.dev.sys.mgrUp = true ∧
      s.dev.acc.parWait = [(0xE030, v)] ∧ bit (group s.dev (.device 0)).force 0 = false) ∧
    (∃ (s : State), s.safe ∧ powered s.dev = true ∧ forcesDown s.dev.sys.mode = false ∧ (s.dev.sys.mgrUp = false ∨
      s.dev.acc.parWait = [])) :=
  ⟨⟨st rig, .pf0, 3, 1, by decide +kernel⟩,
   ⟨st { rig with acc := { rig.acc with rdOff := true } }, .mgr, 2, 2, by decide +kernel⟩,
   ⟨st rig, .pf0, by decide +kernel⟩,
   ⟨st rig, 0xE030, by decide +kernel⟩,
   ⟨st rig, 0xC000, by decide +kernel⟩,
   ⟨st rig, 0xC000, by decide +kernel⟩,
   ⟨st rig, 0xC000, by decide +kernel⟩,
   ⟨st rig, 0x0FFC, by decide +kernel⟩,
   ⟨st { rig with acc := { rig.acc with parWait := [(0xE030, 7)] } }, 7, by decide +kernel⟩,
   ⟨st rig, by decide +kernel⟩⟩

theorem meets_unprivilegedWrites :
    (∃ (s : State) (a : Access), s.safe ∧ powered s.dev = true ∧ passesP s.dev a.master = false ∧ accessOk a 4 = true ∧
      a.offset % 4 = 0) :=
  ⟨st rig, ⟨.pf1, false, 0x3FFC⟩, by decide +kernel⟩

theorem meets_wideReadsAndLocks :
    (∃ (s : State) (m : Master) (sel : W32), s.safe ∧ powered s.dev = true ∧ s.dev.clk.coreSrc ≠ 2 ∧ classAllowed s.dev m
      (fld sel 31 24) = false) ∧
    (∃ (s : State) (m : Master) (sel : W32), s.safe ∧ powered s.dev = true ∧ s.dev.clk.coreSrc ≠ 2 ∧ classAllowed s.dev m
      (fld sel 31 24) = true ∧ classDefined (fld sel 31 24) = false) ∧
    (∃ (s : State) (sel : W32), s.safe ∧ powered s.dev = true ∧ s.dev.clk.coreSrc ≠ 2 ∧ sel = 0x0100_0000) ∧
    (∃ (s : State) (m : Master) (x : Fin 4), s.safe ∧ powered s.dev = true ∧ s.dev.clk.coreSrc ≠ 2 ∧ [Master.mgr, .pf0, .pf1,
      .sb][x.val] ≠ m) ∧
    (∃ (s : State) (i : Fin 32), s.safe ∧ powered s.dev = true ∧ s.dev.clk.coreSrc ≠ 2 ∧ lockOwner s.dev.acc i = 0) ∧
    (∃ (s : State) (i : Fin 32), s.safe ∧ powered s.dev = true ∧ s.dev.clk.coreSrc ≠ 2 ∧ lockOwner s.dev.acc i ≠ 0) ∧
    (∃ (s : State) (m : Master) (i : Fin 32) (v : W32), s.safe ∧ powered s.dev = true ∧ s.dev.clk.coreSrc ≠ 2 ∧ (lockOwner
      s.dev.acc i).toNat = m.code ∧ v = 0) ∧
    (∃ (s : State) (m : Master) (i : Fin 32) (v : W32), s.safe ∧ powered s.dev = true ∧ s.dev.clk.coreSrc ≠ 2 ∧ ((lockOwner
      s.dev.acc i).toNat ≠ m.code ∨ v ≠ 0)) ∧
    (∃ (s : State) (m : Master), s.safe ∧ powered s.dev = true ∧ s.dev.clk.coreSrc ≠ 2 ∧ (m = .mgr ∨ m = .pf0)) ∧
    (∃ (s : State) (m : Master), s.safe ∧ powered s.dev = true ∧ s.dev.clk.coreSrc ≠ 2 ∧ (m = .pf1 ∨ m = .sb)) :=
  ⟨⟨st rig, .pf1, 0x4000_0000, by decide +kernel⟩,
   ⟨st rig, .pf0, 0x7F00_0000, by decide +kernel⟩,
   ⟨st rig, 0x0100_0000, by decide +kernel⟩,
   ⟨st rig, .pf0, 3, by decide +kernel⟩,
   ⟨st rig, 31, by decide +kernel⟩,
   ⟨st (setLock rig 31 2), 31, by decide +kernel⟩,
   ⟨st (setLock rig 31 2), .pf0, 31, 0, by decide +kernel⟩,
   ⟨st (setLock rig 31 2), .pf1, 31, 0, by decide +kernel⟩,
   ⟨st rig, .pf0, by decide +kernel⟩,
   ⟨st rig, .sb, by decide +kernel⟩⟩

theorem meets_mailboxes :
    (∃ (s : State) (m : Master), s.safe ∧ powered s.dev = true ∧ m ≠ .mgr ∧ s.dev.mbxN.flushedAt ≠ some s.dev.dt.dt ∧
      s.dev.mbxN.h2dFull = false) ∧
    (∃ (s : State) (m : Master), s.safe ∧ powered s.dev = true ∧ m ≠ .mgr ∧ s.dev.mbxN.flushedAt ≠ some s.dev.dt.dt ∧
      s.dev.mbxN.h2dFull = true) ∧
    (∃ (s : State) (m : Master), s.safe ∧ powered s.dev = true ∧ m ≠ .mgr ∧ s.dev.mbxN.flushedAt = some s.dev.dt.dt) ∧
    (∃ (s : State) (m : Master) (v : W32) (dst : BitVec 2) (rest : List (W32 × BitVec 2)), s.safe ∧ powered s.dev = true ∧ m
      ≠ .mgr ∧ s.dev.mbxN.held = (v, dst) :: rest ∧ s.dev.mbxN.d2hFull = false ∧ s.dev.sys.mgrUp = true ∧ dst = 3 ∧ bit
      s.dev.mbxN.ie 2 = true) ∧
    (∃ (s : State) (m : Master), s.safe ∧ powered s.dev = true ∧ m ≠ .mgr ∧ s.dev.mbxN.d2hFull = true ∧ (s.dev.mbxN.d2hDst =
      0 ∨ s.dev.mbxN.d2hDst = m.host)) ∧
    (∃ (s : State) (m : Master), s.safe ∧ powered s.dev = true ∧ m ≠ .mgr ∧ (s.dev.mbxN.d2hFull = false ∨ (s.dev.mbxN.d2hDst
      ≠ 0 ∧ s.dev.mbxN.d2hDst ≠ m.host))) ∧
    (∃ (s : State) (b : Box) (w : W32), (mbx s.dev b).h2d = w ∧ requested s b 1 = true) ∧
    (∃ (s : State) (b : Box) (w : W32) (f : Fn), (mbx s.dev b).h2d = w ∧ requested s b 2 = true ∧ f = (if bit w 0 then .pf1
      else .pf0) ∧ (b = .s ∨ (mbx s.dev b).wrSrc = f.host)) ∧
    (∃ (s : State) (b : Box) (w : W32) (f : Fn), (mbx s.dev b).h2d = w ∧ requested s b 2 = true ∧ f = (if bit w 0 then .pf1
      else .pf0) ∧ b = .n ∧ (mbx s.dev b).wrSrc ≠ f.host) ∧
    (∃ (s : State) (b : Box) (w : W32), (mbx s.dev b).h2d = w ∧ requested s b 3 = true ∧ b = .n) ∧
    (∃ (s : State) (b : Box) (w : W32), (mbx s.dev b).h2d = w ∧ requested s b 3 = true ∧ b = .s) ∧
    (∃ (s : State) (b : Box) (w : W32), (mbx s.dev b).h2d = w ∧ requested s b 4 = true ∧ b = .n) ∧
    (∃ (s : State) (b : Box) (w : W32), (mbx s.dev b).h2d = w ∧ requested s b 4 = true ∧ b = .s ∧ s.dev.sys.mode = .run) ∧
    (∃ (s : State) (b : Box) (w : W32), (mbx s.dev b).h2d = w ∧ requested s b 4 = true ∧ b = .s ∧ s.dev.sys.mode ≠ .run) ∧
    (∃ (s : State) (b : Box) (w : W32), (mbx s.dev b).h2d = w ∧ requested s b 5 = true ∧ b = .n) ∧
    (∃ (s : State) (b : Box) (w : W32), (mbx s.dev b).h2d = w ∧ requested s b 5 = true ∧ b = .s ∧ s.dev.sys.mode = .maintain
      ∧ s.dev.bist.privOp = none ∧ s.dev.bist.privRun = 0 ∧ s.dev.boot.activateOp = none) ∧
    (∃ (s : State) (b : Box) (w : W32), (mbx s.dev b).h2d = w ∧ requested s b 5 = true ∧ b = .s ∧ s.dev.sys.mode ≠ .maintain) ∧
    (∃ (s : State) (b : Box) (w : W32), (mbx s.dev b).h2d = w ∧ requested s b 6 = true ∧ b = .n) ∧
    (∃ (s : State) (b : Box) (w : W32), (mbx s.dev b).h2d = w ∧ requested s b 6 = true ∧ b = .s ∧ s.dev.sys.mode ≠ .safe) ∧
    (∃ (s : State) (b : Box) (w : W32), (mbx s.dev b).h2d = w ∧ requested s b 6 = true ∧ b = .s ∧ canResume s.dev = true ∧
      s.dev.sys.safeToHold = false ∧ s.dev.sys.safeByFence = false) ∧
    (∃ (s : State) (b : Box) (w : W32), (mbx s.dev b).h2d = w ∧ (requested s b 7 = true ∨ requested s b 0 = true ∨ requested
      s b 15 = true)) :=
  ⟨⟨st rig, .sb, by decide +kernel⟩,
   ⟨st (mail .n 0), .sb, by decide +kernel⟩,
   ⟨st (modMbx rig .n fun x => { x with flushedAt := some 1000 }), .pf0, by decide +kernel⟩,
   ⟨st (modMbx rig .n fun x => { x with held := [(5, 3)], ie := 4 }), .pf0, 5, 3, [], by decide +kernel⟩,
   ⟨st (modMbx rig .n fun x => { x with d2hFull := true, d2hDst := 1 }), .pf0, by decide +kernel⟩,
   ⟨st (modMbx rig .n fun x => { x with d2hFull := true, d2hDst := 1 }), .pf1, by decide +kernel⟩,
   ⟨st (mail .n 0x1000_0000), .n, 0x1000_0000, by decide +kernel⟩,
   ⟨st (mail .n 0x2000_0000 1), .n, 0x2000_0000, .pf0, by decide +kernel⟩,
   ⟨st (mail .n 0x2000_0001 1), .n, 0x2000_0001, .pf1, by decide +kernel⟩,
   ⟨st (mail .n 0x3000_0000), .n, 0x3000_0000, by decide +kernel⟩,
   ⟨st (mail .s 0x3000_0000), .s, 0x3000_0000, by decide +kernel⟩,
   ⟨st (mail .n 0x4000_0000), .n, 0x4000_0000, by decide +kernel⟩,
   ⟨st (mail .s 0x4000_0000), .s, 0x4000_0000, by decide +kernel⟩,
   ⟨st (mail .s 0x4000_0000 3 (inMode .hold)), .s, 0x4000_0000, by decide +kernel⟩,
   ⟨st (mail .n 0x5000_0000), .n, 0x5000_0000, by decide +kernel⟩,
   ⟨st (mail .s 0x5000_0000 3 (inMode .maintain)), .s, 0x5000_0000, by decide +kernel⟩,
   ⟨st (mail .s 0x5000_0000), .s, 0x5000_0000, by decide +kernel⟩,
   ⟨st (mail .n 0x6000_0000), .n, 0x6000_0000, by decide +kernel⟩,
   ⟨st (mail .s 0x6000_0000), .s, 0x6000_0000, by decide +kernel⟩,
   ⟨st (mail .s 0x6000_0000 3 calm), .s, 0x6000_0000, by decide +kernel⟩,
   ⟨st (mail .s 0xF000_0000), .s, 0xF000_0000, by decide +kernel⟩⟩

theorem meets_wordStream :
    (∃ (s : State) (b : Box) (w : W32) (who : BitVec 2) (len n : Nat), (mbx s.dev b).h2d = w ∧ (mbx s.dev b).wrSrc = who ∧
      s.dev.cfg.streamLen = len ∧ s.dev.cfg.streamWords = n ∧ requested s b 12 = true ∧ fld w 23 20 = 0 ∧ s.dev.sys.mode =
      .hold ∧ s.dev.cfg.stream = none ∧ s.dev.cfg.image = [] ∧ 24 ≤ fld w 19 0 ∧ fld w 19 0 ≤ 524288) ∧
    (∃ (s : State) (b : Box) (w : W32) (who : BitVec 2) (len n : Nat), (mbx s.dev b).h2d = w ∧ (mbx s.dev b).wrSrc = who ∧
      s.dev.cfg.streamLen = len ∧ s.dev.cfg.streamWords = n ∧ requested s b 13 = true ∧ s.dev.sys.mode = .hold ∧
      s.dev.cfg.stream = some (b, who) ∧ n < len ∧ fld w 23 16 = n % 256) ∧
    (∃ (s : State) (b : Box) (w : W32) (who : BitVec 2) (len n : Nat), (mbx s.dev b).h2d = w ∧ (mbx s.dev b).wrSrc = who ∧
      s.dev.cfg.streamLen = len ∧ s.dev.cfg.streamWords = n ∧ requested s b 13 = true ∧ s.dev.sys.mode = .hold ∧
      s.dev.cfg.stream = some (b, who) ∧ (fld w 23 16 ≠ n % 256 ∨ len ≤ n)) ∧
    (∃ (s : State) (b : Box) (w : W32) (who : BitVec 2) (len n : Nat), (mbx s.dev b).h2d = w ∧ (mbx s.dev b).wrSrc = who ∧
      s.dev.cfg.streamLen = len ∧ s.dev.cfg.streamWords = n ∧ requested s b 12 = true ∧ fld w 23 20 = 1 ∧ s.dev.sys.mode =
      .hold ∧ s.dev.cfg.stream = some (b, who) ∧ n < len) ∧
    (∃ (s : State) (b : Box) (w : W32) (who : BitVec 2) (len n : Nat) (l : List Section), (mbx s.dev b).h2d = w ∧ (mbx s.dev
      b).wrSrc = who ∧ s.dev.cfg.streamLen = len ∧ s.dev.cfg.streamWords = n ∧ requested s b 12 = true ∧ fld w 23 20 = 1 ∧
      s.dev.sys.mode = .hold ∧ s.dev.cfg.stream = some (b, who) ∧ len ≤ n ∧ validate s.dev (heldFrom 0 s.dev.cfg.image) = .ok
      l ∧ (∀ y ∈ l, y.type ≠ 1)) ∧
    (∃ (s : State) (b : Box) (w : W32) (who : BitVec 2) (len n : Nat), (mbx s.dev b).h2d = w ∧ (mbx s.dev b).wrSrc = who ∧
      s.dev.cfg.streamLen = len ∧ s.dev.cfg.streamWords = n ∧ requested s b 12 = true ∧ fld w 23 20 = 2 ∧ s.dev.sys.mode =
      .hold ∧ s.dev.cfg.stream = some (b, who)) ∧
    (∃ (s : State) (b : Box) (w : W32) (who : BitVec 2) (len n : Nat), (mbx s.dev b).h2d = w ∧ (mbx s.dev b).wrSrc = who ∧
      s.dev.cfg.streamLen = len ∧ s.dev.cfg.streamWords = n ∧ s.safe ∧ powered s.dev = true ∧ s.dev.cfg.stream.isSome = true) ∧
    (∃ (s : State) (b : Box) (w : W32) (who : BitVec 2) (len n : Nat), (mbx s.dev b).h2d = w ∧ (mbx s.dev b).wrSrc = who ∧
      s.dev.cfg.streamLen = len ∧ s.dev.cfg.streamWords = n ∧ requested s .n 12 = true ∧ s.dev.sys.mode ≠ .hold ∧ b = .n ∧
      fld w 23 20 = 0) ∧
    (∃ (s : State) (b : Box) (w : W32) (who : BitVec 2) (len n : Nat), (mbx s.dev b).h2d = w ∧ (mbx s.dev b).wrSrc = who ∧
      s.dev.cfg.streamLen = len ∧ s.dev.cfg.streamWords = n ∧ requested s .n 12 = true ∧ s.dev.sys.mode ≠ .hold ∧ b = .n ∧
      fld w 23 20 = 1) ∧
    (∃ (s : State) (b : Box) (w : W32) (who : BitVec 2) (len n : Nat), (mbx s.dev b).h2d = w ∧ (mbx s.dev b).wrSrc = who ∧
      s.dev.cfg.streamLen = len ∧ s.dev.cfg.streamWords = n ∧ requested s .n 12 = true ∧ s.dev.sys.mode ≠ .hold ∧ b = .n ∧
      fld w 23 20 = 2) :=
  ⟨⟨st (mail .s 0xC008_0000 3 (inMode .hold)), .s, 0xC008_0000, 3, 0, 0, by decide +kernel⟩,
   ⟨st (mail .s 0xD017_0000 3 (streaming 23)), .s, 0xD017_0000, 3, 24, 23, by decide +kernel⟩,
   ⟨st (mail .s 0xD018_0000 3 (streaming 24)), .s, 0xD018_0000, 3, 24, 24, by decide +kernel⟩,
   ⟨st (mail .s 0xC010_0000 3 (streaming 23)), .s, 0xC010_0000, 3, 24, 23, by decide +kernel⟩,
   ⟨st (mail .s 0xC010_0000 3 (streaming 24 (inMode .hold (imaged image0)))), .s, 0xC010_0000, 3, 24, 24, sect0,
     by and_intros <;> first | decide +kernel | exact ok_of_isOk (by decide +kernel)⟩,
   ⟨st (mail .s 0xC020_0000 3 (streaming 23)), .s, 0xC020_0000, 3, 24, 23, by decide +kernel⟩,
   ⟨st (mail .s 0 3 (streaming 23)), .s, 0, 3, 24, 23, by decide +kernel⟩,
   ⟨st (mail .n 0xC000_0018), .n, 0xC000_0018, 3, 0, 0, by decide +kernel⟩,
   ⟨st (mail .n 0xC010_0000), .n, 0xC010_0000, 3, 0, 0, by decide +kernel⟩,
   ⟨st (mail .n 0xC020_0000), .n, 0xC020_0000, 3, 0, 0, by decide +kernel⟩⟩

theorem meets_processorRestarts :
    (∃ (s : State), s.safe ∧ powered s.dev = true ∧ s.dev.boot.verified = true ∧ s.dev.boot.mgrTrial = false ∧
      (s.dev.sys.mode = .run ∨ s.dev.sys.mode = .reef) ∧ (group s.dev (.device 4)).level 0 ≤ 1 ∧ (group s.dev (.device
      4)).level 1 ≤ 1 ∧ bit (group s.dev (.device 4)).force 1 = false ∧ s.dev.sys.mgrUp = true ∧ s.dev.sys.restarts ≠
      0xFFFF_FFFF) ∧
    (∃ (s : State), s.safe ∧ powered s.dev = true ∧ s.dev.boot.verified = true ∧ s.dev.boot.mgrTrial = false ∧
      (s.dev.sys.mode = .run ∨ s.dev.sys.mode = .reef) ∧ (group s.dev (.device 4)).level 0 ≤ 1 ∧ (group s.dev (.device
      4)).level 1 ≤ 1 ∧ bit (group s.dev (.device 4)).force 1 = false ∧ s.dev.sys.mgrUp = false ∧ isLive s.dev 0x041 = false) ∧
    (∃ (s : State), s.safe ∧ powered s.dev = true ∧ s.dev.boot.verified = true ∧ s.dev.boot.mgrTrial = false ∧
      (s.dev.sys.mode = .run ∨ s.dev.sys.mode = .reef) ∧ (group s.dev (.device 4)).level 0 ≤ 1 ∧ (group s.dev (.device
      4)).level 1 ≤ 1 ∧ bit (group s.dev (.device 4)).force 1 = false ∧ s.dev.sys.mgrUp = false ∧ isLive s.dev 0x041 = true ∧
      s.dev.sys.restarts ≠ 0xFFFF_FFFF) ∧
    (∃ (s : State), s.safe ∧ powered s.dev = true ∧ s.dev.boot.verified = true ∧ s.dev.boot.mgrTrial = false ∧
      (s.dev.sys.mode = .run ∨ s.dev.sys.mode = .reef) ∧ (group s.dev (.device 4)).level 0 ≤ 1 ∧ (group s.dev (.device
      4)).level 1 ≤ 1 ∧ bit (group s.dev (.device 4)).force 1 = false ∧ s.dev.sys.mgrUp = false ∧ s.dev.host.ops = [] ∧
      s.dev.boot.activateOp = none ∧ s.dev.bist.privOp = none) ∧
    (∃ (s : State) (n : Fin 16) (o : Op), s.safe ∧ powered s.dev = true ∧ forcesDown s.dev.sys.mode = false ∧
      s.dev.boot.pcTrial = false ∧ (s.dev.port n).on = true ∧ isRaised s.dev (srcPort n 11) = false ∧ findOp s.dev o.handle =
      some o ∧ pcRuns n o = true ∧ o.final = none) ∧
    (∃ (s : State) (n : Fin 16), s.safe ∧ powered s.dev = true ∧ forcesDown s.dev.sys.mode = false ∧ s.dev.boot.pcTrial =
      false ∧ (s.dev.port n).on = true ∧ (s.dev.port n).pc.up = false ∧ s.dev.boot.activateOp = none) ∧
    (∃ (s : State) (n : Fin 16), s.safe ∧ powered s.dev = true ∧ forcesDown s.dev.sys.mode = false ∧ s.dev.boot.pcTrial =
      false ∧ (s.dev.port n).on = true ∧ (s.dev.port n).pc.up = true) :=
  ⟨⟨st rig, by decide +kernel⟩,
   ⟨st noMgr, by decide +kernel⟩,
   ⟨st (settle (setLive noMgr 0x041 true)), by decide +kernel⟩,
   ⟨st noMgr, by decide +kernel⟩,
   ⟨st (withOps [op5 (.diagTdr 0)] bundled), 0, op5 (.diagTdr 0), by decide +kernel⟩,
   ⟨st (atP (fun p => { p with pc := { p.pc with up := false } }) bundled), 0, by decide +kernel⟩,
   ⟨st bundled, 0, by decide +kernel⟩⟩

theorem meets_confirmedImage :
    (∃ (s : State) (k : FwKind), s.safe ∧ s.dev.sys.mode = .run ∧ onTrial s.dev.boot k = true) ∧
    (∃ (s : State) (k : FwKind), s.safe ∧ s.dev.sys.mode = .run ∧ onTrial s.dev.boot k = false) :=
  ⟨⟨st { rig with boot := { rig.boot with mgrTrial := true } }, .mgr, by decide +kernel⟩,
   ⟨st rig, .mgr, by decide +kernel⟩⟩

theorem meets_clockLosses :
    (∃ (s : State), s.safe ∧ s.dev.sys.mode = .run ∧ s.dev.clk.lpll = .locked ∧ s.dev.clk.refAct = primary s.dev ∧
      s.dev.clk.priStarted = true ∧ (group s.dev (.device 1)).raised = 0 ∧ s.dev.clk.lpllIn = some (.ref (primary s.dev)) ∧
      s.dev.clk.altQual = true ∧ s.dev.clk.priQual = true) ∧
    (∃ (s : State), s.safe ∧ s.dev.sys.mode = .run ∧ s.dev.clk.lpll = .locked ∧ s.dev.clk.refAct = primary s.dev ∧
      s.dev.clk.priStarted = true ∧ (group s.dev (.device 1)).raised = 0 ∧ s.dev.clk.lpllIn = some (.ref (primary s.dev)) ∧
      s.dev.clk.altQual = false ∧ s.dev.clk.lpllCfg = 0x3C00_0000 ∧ s.dev.dt.running = true) ∧
    (∃ (s : State), s.safe ∧ s.dev.sys.mode = .run ∧ s.dev.clk.lpll = .locked ∧ s.dev.clk.refAct = primary s.dev ∧
      s.dev.clk.priStarted = true ∧ (group s.dev (.device 1)).raised = 0 ∧ s.dev.clk.lpllIn = some .partyWall ∧
      s.dev.clk.lpllCfg = 0x5C00_0000 ∧ s.dev.clk.priQual = true) ∧
    (∃ (s : State), s.safe ∧ s.dev.sys.mode = .run ∧ s.dev.clk.lpll = .locked ∧ s.dev.clk.refAct = primary s.dev ∧
      s.dev.clk.priStarted = true ∧ (group s.dev (.device 1)).raised = 0 ∧ s.dev.clk.lpllIn = some .partyWall ∧
      s.dev.clk.lpllCfg = 0x5C00_0000 ∧ s.dev.clk.priQual = false ∧ s.dev.clk.altQual = false) ∧
    (∃ (s : State) (p : Pll), s.safe ∧ s.dev.sys.mode = .run ∧ s.dev.clk.lpll = .locked ∧ s.dev.clk.refAct = primary s.dev ∧
      s.dev.clk.priStarted = true ∧ (group s.dev (.device 1)).raised = 0 ∧ s.dev.clk.hpll = .locked ∧ bit s.dev.bist.privRun
      1 = false ∧ p = .hpll) ∧
    (∃ (s : State), s.safe ∧ powered s.dev = true ∧ s.dev.clk.lpll = .slew ∧ (group s.dev (.device 1)).raised = 0) :=
  ⟨⟨st (clkd fun c => { c with altQual := true }), by decide +kernel⟩,
   ⟨st rig, by decide +kernel⟩,
   ⟨st (clkd fun c => { c with lpllIn := some .partyWall, lpllCfg := 0x5C00_0000 }), by decide +kernel⟩,
   ⟨st (clkd fun c => { c with lpllIn := some .partyWall, lpllCfg := 0x5C00_0000, priQual := false }), by decide +kernel⟩,
   ⟨st rig, .hpll, by decide +kernel⟩,
   ⟨st (clkd fun c => { c with lpll := .slew }), by decide +kernel⟩⟩

theorem meets_faults :
    (∃ (s : State) (n : Fin 16) (e : FaultEdge), s.safe ∧ s.dev.sys.mode = .run ∧ (∀ x ∈ s.dev.flt.hist ++ s.dev.flt.queue,
      sameTick s.dev x = false) ∧ isRaised s.dev (srcPort n 8) = false ∧ isLive s.dev (srcPort n 8) = false ∧ (s.dev.port
      n).on = true ∧ e = .moment ∧ s.dev.flt.queue.length < 64) ∧
    (∃ (s : State) (n : Fin 16) (e : FaultEdge), s.safe ∧ s.dev.sys.mode = .run ∧ (∀ x ∈ s.dev.flt.hist ++ s.dev.flt.queue,
      sameTick s.dev x = false) ∧ isRaised s.dev (srcPort n 8) = false ∧ isLive s.dev (srcPort n 8) = false ∧ (s.dev.port
      n).on = true ∧ e = .moment ∧ s.dev.flt.first = none) ∧
    (∃ (s : State) (n : Fin 16) (e : FaultEdge), s.safe ∧ s.dev.sys.mode = .run ∧ twinOcc s.dev (srcPort n 15) false = none ∧
      isRaised s.dev (srcPort n 15) = true ∧ (group s.dev (.port n)).level 15 = 1 ∧ isLive s.dev (srcPort n 15) = false ∧
      (s.dev.port n).on = true ∧ (s.dev.port n).link.st = .up ∧ e = .moment) ∧
    (∃ (s : State) (n : Fin 16) (e : FaultEdge) (o : Occ) (rest : List Occ), s.safe ∧ s.dev.sys.mode = .run ∧ s.dev.flt.hist
      = o :: rest ∧ sameTick s.dev o = true ∧ (∀ x ∈ rest, sameTick s.dev x = false) ∧ o.src = srcPort n 8 ∧ o.level = 0 ∧
      isRaised s.dev (srcPort n 5) = false ∧ isLive s.dev (srcPort n 5) = false ∧ (s.dev.port n).on = true ∧ e = .moment) ∧
    (∃ (s : State) (n : Fin 16) (e : FaultEdge) (o : Occ), s.safe ∧ s.dev.sys.mode = .run ∧ twinOcc s.dev (srcPort n 5) false
      = some o ∧ isLive s.dev (srcPort n 5) = false ∧ (s.dev.port n).on = true ∧ e = .moment) ∧
    (∃ (s : State) (n : Fin 16) (e : FaultEdge), s.safe ∧ s.dev.sys.mode = .run ∧ isLive s.dev (srcPort n 15) = true ∧ e =
      .moment) ∧
    (∃ (s : State) (n : Fin 16), s.safe ∧ s.dev.sys.mode = .run ∧ (s.dev.port n).on = false) ∧
    (∃ (s : State), s.safe ∧ s.dev.sys.mode = .run ∧ isLive s.dev 0x024 = false ∧ isRaised s.dev 0x024 = false) ∧
    (∃ (s : State), s.safe ∧ s.dev.sys.mode = .run ∧ isLive s.dev 0x024 = false ∧ isLive s.dev 0x023 = false) ∧
    (∃ (s : State) (o : Occ) (rest : List Occ), s.safe ∧ powered s.dev = true ∧ s.dev.flt.queue = o :: rest ∧ s.dev.sys.mgrUp
      = true ∧ (s.dev.fn .pf0).ev.st = .run ∧ ringFull (s.dev.fn .pf0).ev.cfg (s.dev.fn .pf0).ev.prod (s.dev.fn .pf0).ev.cons
      = false ∧ (s.dev.fn .pf0).ev.lost = 0) ∧
    (∃ (s : State), s.safe ∧ powered s.dev = true ∧ (s.dev.flt.queue = [] ∨ s.dev.sys.mgrUp = false)) ∧
    (∃ (s : State) (m : Master), s.safe ∧ powered s.dev = true ∧ (m = .pf1 ∨ m = .sb)) ∧
    (∃ (s : State) (m : Master) (g : Fin 9) (v : W16), s.safe ∧ powered s.dev = true ∧ (∀ x ∈ s.dev.flt.hist, sameTick s.dev
      x = false) ∧ (m = .mgr ∨ m = .pf0) ∧ v = 1 ∧ g = 3 ∧ (group s.dev (.device 3)).live = 0 ∧ (group s.dev (.device
      3)).raised = 0) ∧
    (∃ (s : State), s.safe ∧ powered s.dev = true ∧ s.dev.flt.halt.pending = true ∧ s.dev.flt.halt.rom = false ∧
      s.dev.sys.mode = .safe) ∧
    (∃ (s : State), s.safe ∧ powered s.dev = true ∧ s.dev.flt.halt.pending = false) :=
  ⟨⟨st bundled, 0, .moment, by decide +kernel⟩,
   ⟨st bundled, 0, .moment, by decide +kernel⟩,
   ⟨st (raisedAt 0x10F 1 bundled), 0, .moment, by decide +kernel⟩,
   ⟨st (occd { src := srcPort 0 8, level := 0 } up0), 0, .moment, { stamp := rig.stamp, src := srcPort 0 8, level := 0 }, [],
     by decide +kernel⟩,
   ⟨st (occd { src := srcPort 0 5, level := 0, forced := true } up0), 0, .moment,
     { stamp := rig.stamp, src := srcPort 0 5, level := 0, forced := true }, by decide +kernel⟩,
   ⟨st (settle (setLive bundled 0x10F true)), 0, .moment, by decide +kernel⟩,
   ⟨st rig, 0, by decide +kernel⟩,
   ⟨st rig, by decide +kernel⟩,
   ⟨st rig, by decide +kernel⟩,
   ⟨st { rig with flt := { rig.flt with queue := [{ src := 0x010, level := 1 }] } }, { src := 0x010, level := 1 }, [], by
     decide +kernel⟩,
   ⟨st rig, by decide +kernel⟩,
   ⟨st rig, .sb, by decide +kernel⟩,
   ⟨st rig, .pf0, 3, 1, by decide +kernel⟩,
   ⟨st (inMode .safe (haltd fun h => { h with pending := true })), by decide +kernel⟩,
   ⟨st rig, by decide +kernel⟩⟩

theorem meets_corePower :
    (∃ (s : State) (m : Master), s.safe ∧ powered s.dev = true ∧ reachesAll m = false) ∧
    (∃ (s : State) (m : Master), s.safe ∧ powered s.dev = true ∧ reachesAll m = true ∧ s.dev.clk.coreSrc = 2) ∧
    (∃ (s : State) (m : Master), s.safe ∧ powered s.dev = true ∧ mayWrite s m = true ∧ s.dev.avs.cfgHost = false) ∧
    (∃ (s : State) (m : Master) (f : BitVec 2), s.safe ∧ powered s.dev = true ∧ mayWrite s m = true ∧ f ≠ 3 ∧
      s.dev.avs.cfgHost = true ∧ s.dev.avs.busy = true) ∧
    (∃ (s : State) (m : Master) (v : W8), s.safe ∧ powered s.dev = true ∧ mayWrite s m = true ∧ s.dev.avs.cfgHost = true ∧
      s.dev.avs.busy = false ∧ (v.toNat < 136 ∨ 172 < v.toNat)) ∧
    (∃ (s : State) (m : Master) (v : W8), s.safe ∧ powered s.dev = true ∧ mayWrite s m = true ∧ s.dev.avs.cfgHost = true ∧
      s.dev.avs.busy = false ∧ 136 ≤ v.toNat ∧ v.toNat ≤ 172 ∧ v.toNat < vMin s.dev.avs s.dev.avs.freq) ∧
    (∃ (s : State) (m : Master) (v : W8), s.safe ∧ powered s.dev = true ∧ mayWrite s m = true ∧ s.dev.avs.cfgHost = true ∧
      s.dev.avs.busy = false ∧ 136 ≤ v.toNat ∧ v.toNat ≤ 172 ∧ vMin s.dev.avs s.dev.avs.freq ≤ v.toNat ∧ v ≠ s.dev.avs.volt) ∧
    (∃ (s : State) (m : Master) (f : BitVec 2), s.safe ∧ powered s.dev = true ∧ mayWrite s m = true ∧ f ≠ 3 ∧
      s.dev.avs.cfgHost = true ∧ s.dev.avs.busy = false) ∧
    (∃ (s : State) (v : W8) (f : BitVec 2), s.safe ∧ powered s.dev = true ∧ s.dev.avs.target = some (v, f) ∧ forcesDown
      s.dev.sys.mode = false ∧ isRaised s.dev 0x020 = false ∧ isLive s.dev 0x020 = false) ∧
    (∃ (s : State), s.safe ∧ powered s.dev = true ∧ s.dev.avs.target = none) :=
  ⟨⟨st rig, .sb, by decide +kernel⟩,
   ⟨st (clkd fun c => { c with coreSrc := 2 }), .pf0, by decide +kernel⟩,
   ⟨st rig, .pf0, by decide +kernel⟩,
   ⟨st (avsd fun a => { a with cfgHost := true, busy := true }), .pf0, 2, by decide +kernel⟩,
   ⟨st (avsd fun a => { a with cfgHost := true }), .pf0, 135, by decide +kernel⟩,
   ⟨st (avsd fun a => { a with cfgHost := true, vset := 150 }), .pf0, 149, by decide +kernel⟩,
   ⟨st (avsd fun a => { a with cfgHost := true, vset := 150 }), .pf0, 172, by decide +kernel⟩,
   ⟨st (avsd fun a => { a with cfgHost := true }), .pf0, 2, by decide +kernel⟩,
   ⟨st (avsd fun a => { a with target := some (172, 0) }), 172, 0, by decide +kernel⟩,
   ⟨st rig, by decide +kernel⟩⟩

theorem meets_deviceReef :
    (∃ (s : State), s.safe ∧ s.dev.sys.mode = .run ∧ devIdle s.dev = true ∧ bit s.dev.pwr.cfg 1 = true ∧ s.dev.avs.deepStep =
      0 ∧ s.dev.avs.freq ≠ 3 ∧ wakeNow s.dev = none ∧ s.dev.avs.cfgHost = false) ∧
    (∃ (s : State), s.safe ∧ s.dev.sys.mode = .run ∧ devIdle s.dev = true ∧ bit s.dev.pwr.cfg 1 = true ∧ s.dev.avs.deepStep =
      0 ∧ s.dev.avs.freq ≠ 3 ∧ wakeNow s.dev = none ∧ s.dev.avs.cfgHost = true) ∧
    (∃ (s : State), s.safe ∧ s.dev.sys.mode = .run ∧ (devIdle s.dev = false ∨ bit s.dev.pwr.cfg 1 = false)) ∧
    (∃ (s : State) (w : WakeSrc), s.safe ∧ s.dev.sys.mode = .run ∧ devIdle s.dev = true ∧ bit s.dev.pwr.cfg 1 = true ∧
      s.dev.avs.deepStep = 0 ∧ wakeNow s.dev = some w) ∧
    (∃ (s : State), s.safe ∧ s.dev.sys.mode = .reef ∧ s.dev.avs.cfgHost = false ∧ s.dev.avs.volt = 136 ∧ s.dev.avs.freq = 2 ∧
      136 < s.dev.avs.vset.toNat) ∧
    (∃ (s : State), s.safe ∧ s.dev.sys.mode = .reef ∧ s.dev.avs.deepStep = 0 ∧ s.dev.pwr.wakeEn ≠ 0 ∧ fld s.dev.pwr.cfg 31 24
      ≠ 0 ∧ wakeNow s.dev = none) ∧
    (∃ (s : State), s.safe ∧ s.dev.sys.mode = .reef ∧ s.dev.avs.deepStep = 0 ∧ s.dev.pwr.wakeEn ≠ 0 ∧ fld s.dev.pwr.cfg 31 24
      ≠ 0 ∧ (wakeNow s.dev).isSome = true) ∧
    (∃ (s : State), s.safe ∧ s.dev.sys.mode = .reef ∧ (fld s.dev.pwr.cfg 31 24 = 0 ∨ s.dev.pwr.wakeEn = 0)) ∧
    (∃ (s : State) (w : WakeSrc), s.safe ∧ (s.dev.sys.mode = .run ∨ s.dev.sys.mode = .reef) ∧ s.dev.avs.deepStep = 1 ∧
      wakeEnabled s.dev w = true ∧ s.dev.avs.deepOp = none) ∧
    (∃ (s : State) (w : WakeSrc), s.safe ∧ (s.dev.sys.mode = .run ∨ s.dev.sys.mode = .reef) ∧ s.dev.avs.deepStep = 2 ∧
      wakeEnabled s.dev w = true) ∧
    (∃ (s : State), s.safe ∧ (s.dev.sys.mode = .run ∨ s.dev.sys.mode = .reef) ∧ s.dev.avs.deepStep = 2 ∧ s.dev.avs.deepSent =
      none) ∧
    (∃ (s : State) (w : WakeSrc), s.safe ∧ wakeEnabled s.dev w = false) ∧
    (∃ (s : State) (w : WakeSrc), s.safe ∧ s.dev.sys.mode = .deep ∧ s.dev.pwr.coreOn = false ∧ wakeEnabled s.dev w = true) ∧
    (∃ (s : State) (a : BitVec 7), s.safe ∧ a ≠ sbAddress s.dev) ∧
    (∃ (s : State) (a : BitVec 7), s.safe ∧ s.dev.sys.mode = .deep ∧ s.dev.pwr.coreOn = false ∧ a = sbAddress s.dev ∧
      s.dev.pwr.pllOn = true) ∧
    (∃ (s : State) (a : BitVec 7), s.safe ∧ s.dev.sys.mode = .deep ∧ s.dev.pwr.coreOn = false ∧ bit s.dev.pwr.wakeEn 16 =
      true ∧ a = sbAddress s.dev ∧ s.dev.pwr.pllOn = false) ∧
    (∃ (s : State), s.safe ∧ s.dev.sys.mode = .run ∧ s.dev.avs.deepStep = 0 ∧ wakeEnabled s.dev .sideband = false) ∧
    (∃ (s : State) (a : BitVec 7), s.safe ∧ s.dev.sys.mode = .reef ∧ s.dev.avs.deepStep = 0 ∧ s.dev.avs.cfgHost = true ∧ a =
      sbAddress s.dev) ∧
    (∃ (s : State), s.safe ∧ s.dev.avs.peWake = true) ∧
    (∃ (s : State), s.safe ∧ s.dev.avs.peWake = false) ∧
    (∃ (s : State) (m : Master), s.safe ∧ powered s.dev = true ∧ (m = .pf1 ∨ m = .sb)) ∧
    (∃ (s : State) (m : Master), s.safe ∧ powered s.dev = true ∧ (m = .mgr ∨ m = .pf0) ∧ s.dev.clk.coreSrc = 2) ∧
    (∃ (s : State) (m : Master) (mask : BitVec 19), s.safe ∧ s.dev.sys.mode = .run ∧ mayWrite s m = true ∧ s.dev.pwr.laneOn =
      true ∧ s.dev.pwr.pwOn = false ∧ mask = 0x30000) ∧
    (∃ (s : State) (m : Master) (mask : BitVec 19), s.safe ∧ s.dev.sys.mode = .run ∧ mayWrite s m = true ∧ mask = 0x40000) :=
  ⟨⟨st (linked .reef1), by decide +kernel⟩,
   ⟨st (avsd (fun a => { a with cfgHost := true }) (linked .reef1)), by decide +kernel⟩,
   ⟨st { rig with pwr := { rig.pwr with cfg := 0 } }, by decide +kernel⟩,
   ⟨st { linked .reef1 with sys := { (linked .reef1).sys with wakeAt := some (1000, .sideband, true) } }, .sideband, by
     decide +kernel⟩,
   ⟨st (inMode .reef (avsd fun a => { a with volt := 136, freq := 2, vset := 137 })), by decide +kernel⟩,
   ⟨st (inMode .reef { rig with pwr := { rig.pwr with cfg := 0x0164_000E, wakeEn := 1 } }), by decide +kernel⟩,
   ⟨st (inMode .reef
     { rig with sys := { rig.sys with wakeAt := some (1000, .sideband, true) }, pwr := { rig.pwr with wakeEn := 1, cfg := 0x0100_0000 } }),
     by decide +kernel⟩,
   ⟨st (inMode .reef), by decide +kernel⟩,
   ⟨st (avsd fun a => { a with deepStep := 1 }), .line 15, by decide +kernel⟩,
   ⟨st (avsd fun a => { a with deepStep := 2 }), .sideband, by decide +kernel⟩,
   ⟨st (avsd fun a => { a with deepStep := 2 }), by decide +kernel⟩,
   ⟨st { rig with pwr := { rig.pwr with wakeEn := 0x3_FFFE } }, .line 0, by decide +kernel⟩,
   ⟨st (inMode .deep { rig with pwr := {} }), .pcie, by decide +kernel⟩,
   ⟨st rig, 0, by decide +kernel⟩,
   ⟨st (inMode .deep { rig with pwr := { pllOn := true } }), 0x38, by decide +kernel⟩,
   ⟨st (inMode .deep { rig with pwr := { wakeEn := 0x10000 } }), 0x38, by decide +kernel⟩,
   ⟨st { rig with pwr := { rig.pwr with wakeEn := 0 } }, by decide +kernel⟩,
   ⟨st (inMode .reef { rig with avs := { rig.avs with cfgHost := true } }), 0x38, by decide +kernel⟩,
   ⟨st (avsd fun a => { a with peWake := true }), by decide +kernel⟩,
   ⟨st rig, by decide +kernel⟩,
   ⟨st rig, .pf1, by decide +kernel⟩,
   ⟨st (clkd fun c => { c with coreSrc := 2 }), .pf0, by decide +kernel⟩,
   ⟨st { rig with pwr := { rig.pwr with pwOn := false } }, .pf0, 0x30000, by decide +kernel⟩,
   ⟨st rig, .mgr, 0x40000, by decide +kernel⟩⟩

theorem meets_laneSetup :
    (∃ (s : State) (mst : Master), s.safe ∧ powered s.dev = true ∧ reachesAll mst = false) ∧
    (∃ (s : State) (mst : Master), s.safe ∧ powered s.dev = true ∧ reachesAll mst = true ∧ s.dev.clk.coreSrc = 2) ∧
    (∃ (s : State) (m : Fin 20) (mst : Master) (v : W32), s.safe ∧ powered s.dev = true ∧ mayWrite s mst = true ∧
      laneDomainOn s.dev m = false ∧ bit v 31 = false) ∧
    (∃ (s : State) (m : Fin 20) (mst : Master) (v : W32), s.safe ∧ powered s.dev = true ∧ mayWrite s mst = true ∧
      laneDomainOn s.dev m = false ∧ v &&& 0x00E0_0000 = 0 ∧ bit v 31 = true) ∧
    (∃ (s : State) (m : Fin 20) (mst : Master) (v : W32), s.safe ∧ powered s.dev = true ∧ mayWrite s mst = true ∧
      laneDomainOn s.dev m = true ∧ v &&& 0x00E0_0000 = 0 ∧ bit v 31 = true ∧ bit (s.dev.lane m).cfg 31 = false) ∧
    (∃ (s : State) (m : Fin 20) (mst : Master) (v : W32), s.safe ∧ powered s.dev = true ∧ mayWrite s mst = true ∧
      laneDomainOn s.dev m = true ∧ bit (s.dev.lane m).cfg 31 = true ∧ bit v 31 = true ∧ fld v 23 22 ≠ 0 ∧ mayLoop s.dev m =
      true) ∧
    (∃ (s : State) (m : Fin 20) (mst : Master) (v : W32), s.safe ∧ powered s.dev = true ∧ mayWrite s mst = true ∧
      laneDomainOn s.dev m = true ∧ bit (s.dev.lane m).cfg 31 = true ∧ bit v 31 = true ∧ fld v 23 22 ≠ 0 ∧ mayLoop s.dev m =
      false) ∧
    (∃ (s : State) (m : Fin 20) (mst : Master) (v : W32), s.safe ∧ powered s.dev = true ∧ mayWrite s mst = true ∧
      laneDomainOn s.dev m = true ∧ bit (s.dev.lane m).cfg 31 = true ∧ bit v 31 = true ∧ bit v 21 = true ∧ bit (s.dev.lane
      m).cfg 21 = false ∧ mayLoop s.dev m = true) ∧
    (∃ (s : State) (m : Fin 20) (mst : Master) (v : W32), s.safe ∧ powered s.dev = true ∧ mayWrite s mst = true ∧
      laneDomainOn s.dev m = true ∧ bit (s.dev.lane m).cfg 31 = true ∧ bit v 31 = true ∧ bit v 21 = true ∧ bit (s.dev.lane
      m).cfg 21 = false ∧ mayLoop s.dev m = false) ∧
    (∃ (s : State) (m : Fin 20) (mst : Master) (v : W32), s.safe ∧ powered s.dev = true ∧ mayWrite s mst = true ∧
      laneDomainOn s.dev m = true ∧ fld v 15 12 + fld v 11 6 + fld v 4 0 ≤ 63 ∧ fld v 15 12 + fld v 4 0 ≤ fld v 11 6) ∧
    (∃ (s : State) (m : Fin 20) (mst : Master) (v : W32), s.safe ∧ powered s.dev = true ∧ mayWrite s mst = true ∧
      laneDomainOn s.dev m = true ∧ (63 < fld v 15 12 + fld v 11 6 + fld v 4 0 ∨ fld v 11 6 < fld v 15 12 + fld v 4 0)) :=
  ⟨⟨st rig, .pf1, by decide +kernel⟩,
   ⟨st (clkd fun c => { c with coreSrc := 2 }), .pf0, by decide +kernel⟩,
   ⟨st { rig with pwr := { rig.pwr with pwOn := false } }, 19, .pf0, 0, by decide +kernel⟩,
   ⟨st { rig with pwr := { rig.pwr with laneOn := false } }, 0, .mgr, 0x8000_0000, by decide +kernel⟩,
   ⟨st rig, 0, .pf0, 0x8000_0000, by decide +kernel⟩,
   ⟨st (lit .off 1 id (linked .isolated)), 0, .pf0, 0x8040_0000, by decide +kernel⟩,
   ⟨st (lit .off 1 id up0), 0, .pf0, 0x8040_0000, by decide +kernel⟩,
   ⟨st (lit .off 1 id (linked .isolated)), 0, .pf0, 0x8020_0000, by decide +kernel⟩,
   ⟨st (lit .off 1 id up0), 0, .pf0, 0x8020_0000, by decide +kernel⟩,
   ⟨st rig, 0, .pf0, 0xFC0, by decide +kernel⟩,
   ⟨st rig, 0, .pf0, 0xFC1, by decide +kernel⟩⟩

theorem meets_laneReceiver :
    (∃ (s : State) (m : Fin 20), s.safe ∧ powered s.dev = true ∧ laneRuns s.dev m = true ∧ m.val < 18 ∧ nearLoop s.dev m =
      true) ∧
    (∃ (s : State) (m : Fin 20), s.safe ∧ powered s.dev = true ∧ laneRuns s.dev m = true ∧ m.val < 18 ∧ fld (s.dev.lane
      m).cfg 28 27 = 0 ∧ fld (s.dev.lane m).cfg 23 21 = 0 ∧ (s.dev.lane m).rx = .squelch) ∧
    (∃ (s : State) (m : Fin 20), s.safe ∧ powered s.dev = true ∧ laneRuns s.dev m = true ∧ m.val < 18 ∧ fld (s.dev.lane
      m).cfg 28 27 = 0 ∧ fld (s.dev.lane m).cfg 23 21 = 0 ∧ (s.dev.lane m).rx = .adapt ∧ bit (s.dev.lane m).rxCfg 23 = false) ∧
    (∃ (s : State) (m : Fin 20), s.safe ∧ powered s.dev = true ∧ laneRuns s.dev m = true ∧ m.val < 18 ∧ fld (s.dev.lane
      m).cfg 28 27 = 0 ∧ fld (s.dev.lane m).cfg 23 21 = 0 ∧ (s.dev.lane m).rx = .adapt ∧ bit (s.dev.lane m).rxCfg 23 = true) ∧
    (∃ (s : State) (m : Fin 20), s.safe ∧ powered s.dev = true ∧ laneRuns s.dev m = true ∧ m.val < 18 ∧ fld (s.dev.lane
      m).cfg 28 27 = 0 ∧ fld (s.dev.lane m).cfg 23 21 = 0 ∧ (s.dev.lane m).coding = 2 ∧ (s.dev.lane m).rx = .align ∧
      (s.dev.lane m).target = none) ∧
    (∃ (s : State) (m : Fin 20), s.safe ∧ powered s.dev = true ∧ laneRuns s.dev m = true ∧ m.val < 18 ∧ fld (s.dev.lane
      m).cfg 28 27 = 0 ∧ fld (s.dev.lane m).cfg 23 21 = 0 ∧ (s.dev.lane m).coding = 2 ∧ (s.dev.lane m).rx = .locked ∧
      (s.dev.lane m).port = none) ∧
    (∃ (s : State) (m : Fin 20) (w : BitVec 60), s.safe ∧ powered s.dev = true ∧ laneRuns s.dev m = true ∧ m.val < 18 ∧ fld
      (s.dev.lane m).cfg 28 27 = 0 ∧ fld (s.dev.lane m).cfg 23 21 = 0 ∧ (s.dev.lane m).coding = 1 ∧ (s.dev.lane m).rx =
      .align ∧ 2 ≤ (s.dev.lane m).good ∧ (s.dev.lane m).target = none ∧ crc16 44 (w.toNat / 65536) = w.toNat % 65536) ∧
    (∃ (s : State) (m : Fin 20) (w : BitVec 60), s.safe ∧ powered s.dev = true ∧ laneRuns s.dev m = true ∧ m.val < 18 ∧ fld
      (s.dev.lane m).cfg 28 27 = 0 ∧ fld (s.dev.lane m).cfg 23 21 = 0 ∧ (s.dev.lane m).coding = 1 ∧ (s.dev.lane m).rx =
      .locked ∧ (s.dev.lane m).bad < 3 ∧ crc16 44 (w.toNat / 65536) ≠ w.toNat % 65536 ∧ (s.dev.lane m).mkBad ≠ 255) ∧
    (∃ (s : State) (m : Fin 20), s.safe ∧ powered s.dev = true ∧ laneRuns s.dev m = true ∧ m.val < 18 ∧ fld (s.dev.lane
      m).cfg 28 27 = 0 ∧ fld (s.dev.lane m).cfg 23 21 = 0 ∧ (s.dev.lane m).coding = 1 ∧ (s.dev.lane m).rx = .locked ∧ 3 ≤
      (s.dev.lane m).bad ∧ (s.dev.lane m).port = none) ∧
    (∃ (s : State) (m : Fin 20) (n : Fin 16), s.safe ∧ powered s.dev = true ∧ laneRuns s.dev m = true ∧ m.val < 18 ∧ fld
      (s.dev.lane m).cfg 28 27 = 0 ∧ fld (s.dev.lane m).cfg 23 21 = 0 ∧ (s.dev.lane m).port = some n ∧ (s.dev.port n).link.st
      = .down) ∧
    (∃ (s : State) (m : Fin 20) (n : Fin 16), s.safe ∧ powered s.dev = true ∧ laneRuns s.dev m = true ∧ m.val < 18 ∧ fld
      (s.dev.lane m).cfg 28 27 = 0 ∧ fld (s.dev.lane m).cfg 23 21 = 0 ∧ (s.dev.lane m).port = some n ∧ (s.dev.port n).link.st
      = .up) ∧
    (∃ (s : State) (m : Fin 20), s.safe ∧ powered s.dev = true ∧ laneRuns s.dev m = true ∧ m.val < 18 ∧ fld (s.dev.lane
      m).cfg 28 27 = 0 ∧ fld (s.dev.lane m).cfg 23 21 = 0 ∧ laneTx s.dev m = .fill ∧ (s.dev.lane m).port = none) ∧
    (∃ (s : State) (m : Fin 20), s.safe ∧ powered s.dev = true ∧ laneRuns s.dev m = true ∧ m.val < 18 ∧ fld (s.dev.lane
      m).cfg 28 27 = 0 ∧ fld (s.dev.lane m).cfg 23 21 = 0 ∧ (s.dev.lane m).rx = .locked ∧ (s.dev.lane m).eye.toNat < fld
      (s.dev.lane m).rxCfg 31 24) ∧
    (∃ (s : State) (m : Fin 20) (eye : W8), s.safe ∧ powered s.dev = true ∧ laneRuns s.dev m = true ∧ m.val < 18 ∧ fld
      (s.dev.lane m).cfg 28 27 = 0 ∧ fld (s.dev.lane m).cfg 23 21 = 0 ∧ (s.dev.lane m).rx = .locked ∧ eye.toNat < fld
      (s.dev.lane m).rxCfg 31 24) :=
  ⟨⟨st (lit .locked 1 fun l => { l with cfg := 0x8040_0000 }), 0, by decide +kernel⟩,
   ⟨st (lit .squelch 1), 0, by decide +kernel⟩,
   ⟨st (lit .adapt 1), 0, by decide +kernel⟩,
   ⟨st (lit .adapt 1 fun l => { l with rxCfg := 0x0080_0000 }), 0, by decide +kernel⟩,
   ⟨st (lit .align 2), 0, by decide +kernel⟩,
   ⟨st (lit .locked 2 fun l => { l with port := none }), 0, by decide +kernel⟩,
   ⟨st (lit .align 1 fun l => { l with good := 2 }), 0, (byhamMarker 0 0 0 0).setWidth 60, by decide +kernel⟩,
   ⟨st (lit .locked 1 fun l => { l with bad := 2 }), 0, 1, by decide +kernel⟩,
   ⟨st (lit .locked 1 fun l => { l with bad := 3, port := none }), 0, by decide +kernel⟩,
   ⟨st (lit .locked 1 fun l => { l with port := some 0 }), 0, 0, by decide +kernel⟩,
   ⟨st (lit .locked 1 id up0), 0, 0, by decide +kernel⟩,
   ⟨st (lit .locked 1 fun l => { l with port := none }), 0, by decide +kernel⟩,
   ⟨st (lit .locked 1 fun l => { l with eye := 0x26, rxCfg := 0x2800_0000 }), 0, by decide +kernel⟩,
   ⟨st (lit .locked 1 fun l => { l with rxCfg := 0x2800_0000 }), 0, 0x27, by decide +kernel⟩⟩

theorem meets_laneTraffic :
    (∃ (s : State) (m : Fin 20) (n : Fin 16) (b : BitVec 65) (x : List Bool) (l : LaneSt), s.safe ∧ powered s.dev = true ∧
      laneRuns s.dev m = true ∧ fld (s.dev.lane m).cfg 23 21 = 0 ∧ l = s.dev.lane m ∧ x = blockWire l b ∧ upstreamPort s.dev
      m = some n ∧ l.coding = 2 ∧ l.rx = .locked ∧ (s.dev.port n).link.mode = .gl25 ∧ (s.dev.port n).link.st = .down ∧
      (s.dev.port n).up.blocks.length < 8000 ∧ (s.dev.port n).up.xoff = false) ∧
    (∃ (s : State) (m : Fin 20) (n : Fin 16) (b : BitVec 65) (x : List Bool) (l : LaneSt), s.safe ∧ powered s.dev = true ∧
      laneRuns s.dev m = true ∧ fld (s.dev.lane m).cfg 23 21 = 0 ∧ l = s.dev.lane m ∧ x = blockWire l b ∧ upstreamPort s.dev
      m = some n ∧ l.coding = 2 ∧ l.rx = .locked ∧ (s.dev.port n).link.mode = .gl25 ∧ (s.dev.port n).link.st = .down ∧
      (s.dev.port n).up.blocks.length = 32768 ∧ (s.dev.port n).up.drop ≠ 0x7FFF) ∧
    (∃ (s : State) (m : Fin 20) (n : Fin 16) (b : BitVec 65) (x : List Bool) (l : LaneSt), s.safe ∧ powered s.dev = true ∧
      laneRuns s.dev m = true ∧ fld (s.dev.lane m).cfg 23 21 = 0 ∧ l = s.dev.lane m ∧ x = blockWire l b ∧ upstreamPort s.dev
      m = some n ∧ l.coding = 2 ∧ l.rx = .locked ∧ (s.dev.port n).link.mode = .gl25 ∧ (s.dev.port n).link.st = .down ∧
      (s.dev.port n).up.blocks.length = 32768 ∧ isLive s.dev (srcLane m 6) = false) ∧
    (∃ (s : State) (m : Fin 20) (n : Fin 16) (b : BitVec 65) (x : List Bool) (l : LaneSt), s.safe ∧ powered s.dev = true ∧
      laneRuns s.dev m = true ∧ fld (s.dev.lane m).cfg 23 21 = 0 ∧ l = s.dev.lane m ∧ x = blockWire l b ∧ l.coding = 1 ∧ l.rx
      = .locked ∧ l.rxBad = false ∧ l.rxRun ≤ 8 ∧ startsWith byhamFill x = none ∧ upstreamPort s.dev m = some n ∧ (s.dev.port
      n).link.mode = .gl25 ∧ (s.dev.port n).link.st = .down ∧ withinLimit (s.dev.port n) = true ∧ (s.dev.port
      n).up.blocks.length < 8000 ∧ (s.dev.port n).up.xoff = false) ∧
    (∃ (s : State) (m : Fin 20) (n : Fin 16) (b : BitVec 65) (x : List Bool) (l : LaneSt), s.safe ∧ powered s.dev = true ∧
      laneRuns s.dev m = true ∧ fld (s.dev.lane m).cfg 23 21 = 0 ∧ l = s.dev.lane m ∧ x = blockWire l b ∧ l.coding = 1 ∧ l.rx
      = .locked ∧ l.rxBad = false ∧ l.rxRun ≤ 8 ∧ startsWith byhamFill x = none ∧ upstreamPort s.dev m = some n ∧ (s.dev.port
      n).link.mode = .gl25 ∧ (s.dev.port n).link.st = .down ∧ withinLimit (s.dev.port n) = false ∧ (s.dev.port n).up.drop ≠
      0x7FFF) ∧
    (∃ (s : State) (m : Fin 20) (n : Fin 16) (b : BitVec 65) (x : List Bool) (l : LaneSt), s.safe ∧ powered s.dev = true ∧
      laneRuns s.dev m = true ∧ fld (s.dev.lane m).cfg 23 21 = 0 ∧ l = s.dev.lane m ∧ x = blockWire l b ∧ l.coding = 1 ∧ l.rx
      = .locked ∧ l.rxBad = false ∧ l.rxRun ≤ 8 ∧ startsWith byhamFill x = none ∧ upstreamPort s.dev m = some n ∧ (s.dev.port
      n).link.mode = .gl25 ∧ (s.dev.port n).link.st = .down ∧ withinLimit (s.dev.port n) = false ∧ isLive s.dev (srcLane m 6)
      = false) ∧
    (∃ (s : State) (m : Fin 20) (b : BitVec 65) (x : List Bool) (l : LaneSt), s.safe ∧ powered s.dev = true ∧ laneRuns s.dev
      m = true ∧ fld (s.dev.lane m).cfg 23 21 = 0 ∧ l = s.dev.lane m ∧ x = blockWire l b ∧ l.coding = 1 ∧ l.rx = .locked ∧
      l.rxBad = false ∧ l.rxRun ≤ 8 ∧ startsWith byhamFill x = none ∧ upstreamPort s.dev m = none ∧ m.val < 18 ∧ isLive s.dev
      (srcLane m 5) = false) ∧
    (∃ (s : State) (m : Fin 20) (n : Fin 16) (b : BitVec 65) (x : List Bool) (l : LaneSt), s.safe ∧ powered s.dev = true ∧
      laneRuns s.dev m = true ∧ fld (s.dev.lane m).cfg 23 21 = 0 ∧ l = s.dev.lane m ∧ x = blockWire l b ∧ (s.dev.port
      n).up.xoff = true ∧ (s.dev.lane (s.dev.port n).lane).coding = 2 ∧ 8192 < (s.dev.port n).up.blocks.length) ∧
    (∃ (s : State) (m : Fin 20) (n : Fin 16) (b : BitVec 65) (x : List Bool) (l : LaneSt), s.safe ∧ powered s.dev = true ∧
      laneRuns s.dev m = true ∧ fld (s.dev.lane m).cfg 23 21 = 0 ∧ l = s.dev.lane m ∧ x = blockWire l b ∧ ((s.dev.port
      n).up.xoff = false ∨ (s.dev.lane (s.dev.port n).lane).coding ≠ 2 ∨ (s.dev.port n).up.blocks.length ≤ 8192)) ∧
    (∃ (s : State) (m : Fin 20) (n : Fin 16) (b : BitVec 65) (x : List Bool) (l : LaneSt), s.safe ∧ powered s.dev = true ∧
      laneRuns s.dev m = true ∧ fld (s.dev.lane m).cfg 23 21 = 0 ∧ l = s.dev.lane m ∧ x = blockWire l b ∧ laneTx s.dev m =
      .data ∧ l.coding = 1 ∧ l.port = some n ∧ l.marks = [] ∧ l.overrun = false ∧ l.sent < 2048) ∧
    (∃ (s : State) (m : Fin 20) (n : Fin 16) (b : BitVec 65) (x : List Bool) (l : LaneSt), s.safe ∧ powered s.dev = true ∧
      laneRuns s.dev m = true ∧ fld (s.dev.lane m).cfg 23 21 = 0 ∧ l = s.dev.lane m ∧ x = blockWire l b ∧ laneTx s.dev m =
      .data ∧ l.coding = 1 ∧ l.port = some n ∧ l.marks = [] ∧ l.overrun = false ∧ 2048 ≤ l.sent) ∧
    (∃ (s : State) (m : Fin 20) (b : BitVec 65) (x : List Bool) (l : LaneSt), s.safe ∧ powered s.dev = true ∧ laneRuns s.dev
      m = true ∧ fld (s.dev.lane m).cfg 23 21 = 0 ∧ l = s.dev.lane m ∧ x = blockWire l b ∧ laneTx s.dev m = .fill ∧ l.coding
      = 1 ∧ l.port = none ∧ l.marks = [] ∧ l.overrun = false) ∧
    (∃ (s : State) (m : Fin 20) (b : BitVec 65) (x : List Bool) (l : LaneSt), s.safe ∧ powered s.dev = true ∧ laneRuns s.dev
      m = true ∧ fld (s.dev.lane m).cfg 23 21 = 0 ∧ l = s.dev.lane m ∧ x = blockWire l b ∧ laneTx s.dev m = .idle ∧ l.overrun
      = false) ∧
    (∃ (s : State) (m : Fin 20) (n : Fin 16) (b : BitVec 65) (x : List Bool) (l : LaneSt), s.safe ∧ powered s.dev = true ∧
      laneRuns s.dev m = true ∧ fld (s.dev.lane m).cfg 23 21 = 0 ∧ l = s.dev.lane m ∧ x = blockWire l b ∧ (s.dev.port
      n).link.st = .reef1 ∧ (s.dev.port n).link.mode = .gl25 ∧ (s.dev.port n).line.reefAt = none ∧ s.dev.sys.mode = .run ∧
      bit s.dev.pwr.padPort n.val = false) :=
  ⟨⟨st (fed 2), 0, 0, 0, wire0 (fed 2), (fed 2).lane 0, by decide +kernel⟩,
   ⟨st (fed 2 fun p => { p with up := { p.up with blocks := List.replicate 32768 0 } }), 0, 0, 0, wire0 (fed 2), (fed 2).lane
     0,
     by and_intros <;> first | exact List.length_replicate | decide +kernel⟩,
   ⟨st (fed 2 fun p => { p with up := { p.up with blocks := List.replicate 32768 0 } }), 0, 0, 0, wire0 (fed 2), (fed 2).lane
     0,
     by and_intros <;> first | exact List.length_replicate | decide +kernel⟩,
   ⟨st (fed 1), 0, 0, 0, wire0 (fed 1), (fed 1).lane 0, by decide +kernel⟩,
   ⟨st (fed 1 fun p => { p with up := { p.up with limit := some 0 } }), 0, 0, 0, wire0 (fed 1), (fed 1).lane 0, by
     decide +kernel⟩,
   ⟨st (fed 1 fun p => { p with up := { p.up with limit := some 0 } }), 0, 0, 0, wire0 (fed 1), (fed 1).lane 0, by
     decide +kernel⟩,
   ⟨st (fed 1 id fun l => { l with hostPort := 31 }), 0, 0, wire0 (fed 1), { (fed 1).lane 0 with hostPort := 31 }, by
     decide +kernel⟩,
   ⟨st (lit .locked 2 id (up0 fun p => { p with up := { p.up with xoff := true, blocks := List.replicate 8193 0 } })), 0, 0,
     0, wire0 (lit .locked 2 id up0), (lit .locked 2 id up0).lane 0,
     by and_intros <;> first | exact Nat.lt_of_lt_of_eq (by decide) (List.length_replicate (n := 8193)).symm | decide +kernel⟩,
   ⟨st (lit .locked 1 id (up0 fun p => { p with up := { p.up with xoff := true, blocks := List.replicate 8192 0 } })), 0, 0,
     0, wire0 (lit .locked 1 id up0), (lit .locked 1 id up0).lane 0,
     by and_intros <;> first | exact .inr (.inr (Nat.le_of_eq (List.length_replicate (n := 8192)))) | decide +kernel⟩,
   ⟨st (feeds fun l => { l with sent := 2047 }), 0, 0, 0, wire0 feeds, { feeds.lane 0 with sent := 2047 }, by decide +kernel⟩,
   ⟨st (feeds fun l => { l with sent := 2048 }), 0, 0, 0, wire0 feeds, { feeds.lane 0 with sent := 2048 }, by decide +kernel⟩,
   ⟨st (lit .locked 1 fun l => { l with port := none }), 0, 0, wire0 (lit .locked 1),
     { (lit .locked 1).lane 0 with port := none }, by decide +kernel⟩,
   ⟨st (lit .locked 1 id (linked .isolated up0)), 0, 0, wire0 feeds, (lit .locked 1 id (linked .isolated up0)).lane 0, by
     decide +kernel⟩,
   ⟨st (lit .locked 1 id (linked .reef1 up0)), 0, 0, 0, wire0 feeds, (lit .locked 1 id (linked .reef1 up0)).lane 0, by
     decide +kernel⟩⟩

theorem meets_markerRoundTrip :
    (∃ (run : Nat), run ≤ 8) ∧
    (∃ (lane port : BitVec 5) (rptr : BitVec 18) (credit : BitVec 16) (w : BitVec 60), w = (byhamMarker lane.toNat port.toNat
      rptr.toNat credit.toNat).setWidth 60) :=
  ⟨⟨8, by decide +kernel⟩,
   ⟨31, 31, 0x3FFFF, 0xFFFF, (byhamMarker 31 31 0x3FFFF 0xFFFF).setWidth 60, by decide +kernel⟩⟩

theorem meets_linkAttempts :
    (∃ (s : State) (n : Fin 16), s.safe ∧ s.dev.sys.mode = .run ∧ bit s.dev.pwr.padPort n.val = false ∧ s.dev.pair.st ≠ .join
      ∧ (s.dev.port n).link.st = .down ∧ (s.dev.port n).link.backoff = true ∧ linkOk (s.dev.port n).cfg = true ∧ (autoStart
      (s.dev.port n).cfg = true ∨ (s.dev.port n).link.wanted = true)) ∧
    (∃ (s : State) (n : Fin 16), s.safe ∧ s.dev.sys.mode = .run ∧ bit s.dev.pwr.padPort n.val = false ∧ s.dev.pair.st ≠ .join
      ∧ (s.dev.port n).link.st = .down ∧ (s.dev.port n).link.backoff = true ∧ linkOk (s.dev.port n).cfg = true ∧ autoStart
      (s.dev.port n).cfg = false ∧ (s.dev.port n).link.wanted = false) ∧
    (∃ (s : State) (n : Fin 16), s.safe ∧ s.dev.sys.mode = .run ∧ bit s.dev.pwr.padPort n.val = false ∧ s.dev.pair.st ≠ .join
      ∧ (s.dev.port n).link.backoff = false) ∧
    (∃ (s : State) (n : Fin 16) (codes : List W8) (vref rext : Int), s.safe ∧ s.dev.sys.mode = .run ∧ bit s.dev.pwr.padPort
      n.val = false ∧ s.dev.pair.st ≠ .join ∧ inPhase (s.dev.port n) 0 = true ∧ codes.length = 50 ∧ vrefOff vref = false ∧
      rextOff rext = false) ∧
    (∃ (s : State) (n : Fin 16) (codes : List W8) (vref rext : Int), s.safe ∧ s.dev.sys.mode = .run ∧ bit s.dev.pwr.padPort
      n.val = false ∧ s.dev.pair.st ≠ .join ∧ inPhase (s.dev.port n) 0 = true ∧ codes.length = 50 ∧ (vrefOff vref = true ∨
      rextOff rext = true)) ∧
    (∃ (s : State) (n : Fin 16) (codes : List W8), s.safe ∧ s.dev.sys.mode = .run ∧ bit s.dev.pwr.padPort n.val = false ∧
      s.dev.pair.st ≠ .join ∧ inPhase (s.dev.port n) 0 = true ∧ codes.length = 50 ∧ (anPolicy (s.dev.port n) ≠ 2 ∨ bit
      (s.dev.port n).link.stdNow 29 = true)) ∧
    (∃ (s : State) (n : Fin 16) (codes : List W8), s.safe ∧ s.dev.sys.mode = .run ∧ bit s.dev.pwr.padPort n.val = false ∧
      s.dev.pair.st ≠ .join ∧ inPhase (s.dev.port n) 0 = true ∧ codes.length = 50 ∧ anPolicy (s.dev.port n) = 2 ∧ bit
      (s.dev.port n).link.stdNow 29 = false) ∧
    (∃ (s : State) (n : Fin 16), s.safe ∧ s.dev.sys.mode = .run ∧ bit s.dev.pwr.padPort n.val = false ∧ s.dev.pair.st ≠ .join
      ∧ inPhase (s.dev.port n) 1 = true ∧ (s.dev.port n).train.beacon.toNat < 2000 ∧ (s.dev.port n).train.stdBeacons = none) ∧
    (∃ (s : State) (n : Fin 16), s.safe ∧ s.dev.sys.mode = .run ∧ bit s.dev.pwr.padPort n.val = false ∧ s.dev.pair.st ≠ .join
      ∧ inPhase (s.dev.port n) 1 = true ∧ (s.dev.port n).train.stdBeacons = some 1) ∧
    (∃ (s : State) (n : Fin 16), s.safe ∧ s.dev.sys.mode = .run ∧ bit s.dev.pwr.padPort n.val = false ∧ s.dev.pair.st ≠ .join
      ∧ inPhase (s.dev.port n) 1 = true ∧ (s.dev.port n).link.fast = false ∧ (s.dev.port n).train.stdBeacons = none ∧
      (anPolicy (s.dev.port n) = 1 ∨ stdModes (hubModes (s.dev.port n)) = 0)) ∧
    (∃ (s : State) (n : Fin 16), s.safe ∧ s.dev.sys.mode = .run ∧ bit s.dev.pwr.padPort n.val = false ∧ s.dev.pair.st ≠ .join
      ∧ inPhase (s.dev.port n) 1 = true ∧ (s.dev.port n).link.fast = false ∧ (s.dev.port n).train.stdBeacons = none ∧
      anPolicy (s.dev.port n) = 0 ∧ stdModes (hubModes (s.dev.port n)) ≠ 0) ∧
    (∃ (s : State) (n : Fin 16), s.safe ∧ s.dev.sys.mode = .run ∧ bit s.dev.pwr.padPort n.val = false ∧ s.dev.pair.st ≠ .join
      ∧ (s.dev.port n).link.st = .training ∧ (phaseTicks (s.dev.port n)).isSome = true ∧ (s.dev.port n).link.fast = false ∧
      (s.dev.port n).train.abbrev_ = false ∧ (s.dev.port n).link.phase ≠ 1) ∧
    (∃ (s : State) (n : Fin 16), s.safe ∧ s.dev.sys.mode = .run ∧ bit s.dev.pwr.padPort n.val = false ∧ s.dev.pair.st ≠ .join
      ∧ phaseTicks (s.dev.port n) = none) ∧
    (∃ (s : State) (n : Fin 16), s.safe ∧ s.dev.sys.mode = .run ∧ bit s.dev.pwr.padPort n.val = false ∧ s.dev.pair.st ≠ .join
      ∧ (s.dev.port n).link.st = .training ∧ (s.dev.port n).link.attemptTimer = true) ∧
    (∃ (s : State) (n : Fin 16), s.safe ∧ s.dev.sys.mode = .run ∧ bit s.dev.pwr.padPort n.val = false ∧ s.dev.pair.st ≠ .join
      ∧ (s.dev.port n).link.attemptTimer = false) :=
  ⟨⟨st (atP (linkP fun l => { l with backoff := true, wanted := true })), 0, by decide +kernel⟩,
   ⟨st (atP (linkP fun l => { l with backoff := true })), 0, by decide +kernel⟩,
   ⟨st rig, 0, by decide +kernel⟩,
   ⟨st (inPh 0), 0, List.replicate 50 0, 30000, 150000, by decide +kernel⟩,
   ⟨st (inPh 0), 0, List.replicate 50 0, 30001, 0, by decide +kernel⟩,
   ⟨st (inPh 0), 0, List.replicate 50 0, by decide +kernel⟩,
   ⟨st (inPh 0 (linkP fun l => { l with cfgNow := 0x0200_0000, stdNow := 0 })), 0, List.replicate 50 0, by decide +kernel⟩,
   ⟨st (inPh 1 (trainP fun t => { t with beacon := 1999 })), 0, by decide +kernel⟩,
   ⟨st (inPh 1 (trainP fun t => { t with stdBeacons := some 1 })), 0, by decide +kernel⟩,
   ⟨st (inPh 1), 0, by decide +kernel⟩,
   ⟨st (inPh 1 (linkP fun l => { l with cfgNow := 0x007F_1470 })), 0, by decide +kernel⟩,
   ⟨st (inPh 2), 0, by decide +kernel⟩,
   ⟨st rig, 0, by decide +kernel⟩,
   ⟨st (inPh 2 (linkP fun l => { l with attemptTimer := true })), 0, by decide +kernel⟩,
   ⟨st rig, 0, by decide +kernel⟩⟩

theorem meets_training :
    (∃ (s : State) (n : Fin 16) (sync : W64) (info : BitVec 192) (m : LineMode) (inv : Bool) (a : Answer), s.safe ∧
      s.dev.sys.mode = .run ∧ bit s.dev.pwr.padPort n.val = false ∧ inPhase (s.dev.port n) 1 = true ∧ (s.dev.port
      n).link.fast = false ∧ (s.dev.port n).train.stdBeacons = none ∧ inv = ((s.dev.port n).train.rxInv || sync ==
      ~~~answerSync) ∧ a = parseAnswer (if inv then ~~~info else info) ∧ (s.dev.port n).train.answers = 2 ∧ sync = (if inv
      then ~~~answerSync else answerSync) ∧ a.crcOk = true ∧ a.port = n.val ∧ a.devid = (devId s.dev).toNat ∧ a.attempt =
      (s.dev.port n).link.attempt.toNat ∧ targetMode s.dev n a.modes = some m) ∧
    (∃ (s : State) (n : Fin 16) (sync : W64) (info : BitVec 192) (inv : Bool) (a : Answer), s.safe ∧ s.dev.sys.mode = .run ∧
      bit s.dev.pwr.padPort n.val = false ∧ inPhase (s.dev.port n) 1 = true ∧ (s.dev.port n).link.fast = false ∧ (s.dev.port
      n).train.stdBeacons = none ∧ inv = ((s.dev.port n).train.rxInv || sync == ~~~answerSync) ∧ a = parseAnswer (if inv then
      ~~~info else info) ∧ a.crcOk = false) ∧
    (∃ (s : State) (n : Fin 16), s.safe ∧ s.dev.sys.mode = .run ∧ bit s.dev.pwr.padPort n.val = false ∧ inPhase (s.dev.port
      n) 2 = true ∧ (s.dev.port n).train.start = some (s.dev.port n).train.useq ∧ (s.dev.port n).train.dropStd = 0 ∧
      (s.dev.port n).train.toneOn = false ∧ (s.dev.port n).link.mode = .gl25) ∧
    (∃ (s : State) (n : Fin 16) (r : TrainResult) (margin : Int), s.safe ∧ s.dev.sys.mode = .run ∧ bit s.dev.pwr.padPort
      n.val = false ∧ inPhase (s.dev.port n) 3 = true ∧ r.ntap.toNat ≤ 24 ∧ r.taps.length = 24 ∧ margin = (s16 (marginOf
      (s.dev.port n).link.mode r.errSq r.symbols 30)).toInt ∧ (s.dev.port n).link.fast = false ∧ 20 ≤ margin) ∧
    (∃ (s : State) (n : Fin 16) (r : TrainResult) (margin : Int), s.safe ∧ s.dev.sys.mode = .run ∧ bit s.dev.pwr.padPort
      n.val = false ∧ inPhase (s.dev.port n) 3 = true ∧ r.ntap.toNat ≤ 24 ∧ r.taps.length = 24 ∧ margin = (s16 (marginOf
      (s.dev.port n).link.mode r.errSq r.symbols 30)).toInt ∧ (s.dev.port n).link.fast = false ∧ margin < 20 ∧ nextDown
      (s.dev.port n) = none ∧ 10 ≤ margin ∧ bit (s.dev.port n).link.cfgNow 4 = true ∧ isRaised s.dev (srcPort n 0) = false) ∧
    (∃ (s : State) (n : Fin 16) (r : TrainResult) (margin : Int), s.safe ∧ s.dev.sys.mode = .run ∧ bit s.dev.pwr.padPort
      n.val = false ∧ inPhase (s.dev.port n) 3 = true ∧ r.ntap.toNat ≤ 24 ∧ r.taps.length = 24 ∧ margin = (s16 (marginOf
      (s.dev.port n).link.mode r.errSq r.symbols 30)).toInt ∧ (s.dev.port n).link.fast = false ∧ margin < 10 ∧ nextDown
      (s.dev.port n) = none) ∧
    (∃ (s : State) (n : Fin 16) (r : TrainResult) (m : LineMode) (margin : Int), s.safe ∧ s.dev.sys.mode = .run ∧ bit
      s.dev.pwr.padPort n.val = false ∧ inPhase (s.dev.port n) 3 = true ∧ r.ntap.toNat ≤ 24 ∧ r.taps.length = 24 ∧ margin =
      (s16 (marginOf (s.dev.port n).link.mode r.errSq r.symbols 30)).toInt ∧ (s.dev.port n).link.fast = false ∧ margin < 20 ∧
      nextDown (s.dev.port n) = some m ∧ m ≠ .t10g) ∧
    (∃ (s : State) (n : Fin 16) (r : TrainResult) (margin : Int), s.safe ∧ s.dev.sys.mode = .run ∧ bit s.dev.pwr.padPort
      n.val = false ∧ inPhase (s.dev.port n) 3 = true ∧ r.ntap.toNat ≤ 24 ∧ r.taps.length = 24 ∧ margin = (s16 (marginOf
      (s.dev.port n).link.mode r.errSq r.symbols 30)).toInt ∧ (s.dev.port n).link.fast = true ∧ margin < 10) ∧
    (∃ (s : State) (n : Fin 16) (r : TrainResult) (margin : Int), s.safe ∧ s.dev.sys.mode = .run ∧ bit s.dev.pwr.padPort
      n.val = false ∧ inPhase (s.dev.port n) 3 = true ∧ r.ntap.toNat ≤ 24 ∧ r.taps.length = 24 ∧ margin = (s16 (marginOf
      (s.dev.port n).link.mode r.errSq r.symbols 30)).toInt ∧ (s.dev.port n).link.fast = true ∧ 10 ≤ margin ∧
      s.dev.dt.running = true) ∧
    (∃ (s : State) (n : Fin 16) (raw tsb : BitVec 256), s.safe ∧ s.dev.sys.mode = .run ∧ bit s.dev.pwr.padPort n.val = false
      ∧ inPhase (s.dev.port n) 4 = true ∧ tsb = tsbOf (s.dev.port n) raw ∧ (parseTsb tsb).crcOk = true ∧ (parseTsb
      tsb).attempt = (s.dev.port n).link.attempt.toNat ∧ (parseTsb tsb).seedAck = true ∧ (parseTsb tsb).pcAck = some
      (s.dev.port n).train.pcSet ∧ (s.dev.port n).train.acks = 1) ∧
    (∃ (s : State) (n : Fin 16), s.safe ∧ s.dev.sys.mode = .run ∧ bit s.dev.pwr.padPort n.val = false ∧ inPhase (s.dev.port
      n) 5 = true ∧ (s.dev.port n).train.switch = some (s.dev.port n).train.useq ∧ (s.dev.port n).train.echoed = true ∧
      (s.dev.port n).train.dropStd = 0 ∧ (s.dev.port n).train.toneOn = false ∧ (s.dev.port n).link.mode = .gl25 ∧ (s.dev.port
      n).rtx.draining = false) :=
  ⟨⟨st (inPh 1 fun p => linkP (fun l => { l with cfgNow := 0x0007_1470 }) (trainP (fun t => { t with answers := 2 }) p)), 0,
  answerSync, answer0, .gl25, false, parseAnswer answer0, by decide +kernel⟩,
   ⟨st (inPh 1), 0, answerSync, 1, false, parseAnswer 1, by decide +kernel⟩,
   ⟨st (inPh 2 fun p => trainP (fun t => { t with start := some 0 }) (linkP (fun l => { l with mode := .gl25 }) p)), 0, by
     decide +kernel⟩,
   ⟨st (inPh 3), 0, trained 30000000, margin3 30000000, by decide +kernel⟩,
   ⟨st (inPh 3 (linkP fun l => { l with cfgNow := 0x10 })), 0, trained 48000000, margin3 48000000, by decide +kernel⟩,
   ⟨st (inPh 3), 0, trained 60000000, margin3 60000000, by decide +kernel⟩,
   ⟨st (inPh 3 (linkP fun l => { l with cfgNow := 0x0007_1470, mode := .gl25, partner := 0x0700_0000 })), 0, trained
     60000000, .gl12, margin3 60000000, by decide +kernel⟩,
   ⟨st (inPh 3 (linkP fun l => { l with fast := true })), 0, trained 60000000, margin3 60000000, by decide +kernel⟩,
   ⟨st (inPh 3 (linkP fun l => { l with fast := true })), 0, trained 40000000, margin3 40000000, by decide +kernel⟩,
   ⟨st (inPh 4 (trainP fun t => { t with acks := 1 })), 0, tsbOf ((inPh 4).port 0) status0, status0, by decide +kernel⟩,
   ⟨st (inPh 5 fun p => trainP (fun t => { t with switch := some 0, echoed := true }) (linkP (fun l =>
     { l with mode := .gl25 }) p)), 0, by decide +kernel⟩⟩

theorem meets_reorderBuffer :
    (∃ (s : State) (n : Fin 16) (seq : Seq) (slot : BitVec 4) (y : List Int) (k : Nat) (data : BitVec 3250), s.safe ∧
      s.dev.sys.mode = .run ∧ (s.dev.port n).link.mode = .gl25 ∧ (s.dev.port n).link.st = .up ∧ slot.toNat ≠ 0 ∧ slot.toNat <
      15 ∧ descOf (s.dev.port n).rtx seq slot = none ∧ findEntry (s.dev.port n).rtx seq slot = none ∧ (s.dev.port
      n).rtx.entries.length < 1152 ∧ decoded (s.dev.port n) seq slot y = some (k, data)) ∧
    (∃ (s : State) (n : Fin 16) (seq : Seq) (slot : BitVec 4) (y : List Int), s.safe ∧ s.dev.sys.mode = .run ∧ (s.dev.port
      n).link.mode = .gl25 ∧ (s.dev.port n).link.st = .up ∧ slot.toNat ≠ 0 ∧ slot.toNat < 15 ∧ descOf (s.dev.port n).rtx seq
      slot = none ∧ findEntry (s.dev.port n).rtx seq slot = none ∧ (s.dev.port n).rtx.entries.length < 1152 ∧ decoded
      (s.dev.port n) seq slot y = none ∧ (s.dev.port n).train.badRun < 7) ∧
    (∃ (s : State) (n : Fin 16) (seq : Seq) (slot : BitVec 4) (y : List Int), s.safe ∧ s.dev.sys.mode = .run ∧ (s.dev.port
      n).link.mode = .gl25 ∧ (s.dev.port n).link.st = .up ∧ slot.toNat ≠ 0 ∧ slot.toNat < 15 ∧ descOf (s.dev.port n).rtx seq
      slot = none ∧ findEntry (s.dev.port n).rtx seq slot = none ∧ (s.dev.port n).rtx.entries.length < 1152 ∧ decoded
      (s.dev.port n) seq slot y = none ∧ (s.dev.port n).train.badRun = 7 ∧ bit s.dev.pwr.padPort n.val = false ∧ (s.dev.port
      n).on = true ∧ isRaised s.dev (srcPort n 8) = false) ∧
    (∃ (s : State) (n : Fin 16) (seq : Seq) (slot : BitVec 4) (y : List Int) (k : Nat) (data : BitVec 3250) (e : REntry) (x :
      SlotDesc), s.safe ∧ s.dev.sys.mode = .run ∧ (s.dev.port n).link.mode = .gl25 ∧ (s.dev.port n).link.st = .up ∧
      slot.toNat < 15 ∧ descOf (s.dev.port n).rtx seq slot = some x ∧ x.1 = true ∧ x.2.1 ≠ 0 ∧ isRtx (s.dev.port n).rtx
      (targetOf seq x).1 (targetOf seq x).2 = false ∧ findEntry (s.dev.port n).rtx seq slot = none ∧ findEntry (s.dev.port
      n).rtx (targetOf seq x).1 (targetOf seq x).2 = some e ∧ e.data = none ∧ (s.dev.port n).rtx.entries.length < 1152 ∧
      (targetOf seq x) ≠ (seq, slot) ∧ slot.toNat ≠ 0 ∧ decoded (s.dev.port n) seq slot y = some (k, data)) ∧
    (∃ (s : State) (n : Fin 16) (seq : Seq) (slot : BitVec 4) (data : BitVec 3250) (e : REntry), s.safe ∧ s.dev.sys.mode =
      .run ∧ (s.dev.port n).link.mode = .gl25 ∧ (s.dev.port n).link.st = .up ∧ findEntry (s.dev.port n).rtx seq slot = some e
      ∧ slot.toNat < 15 ∧ laneTx s.dev (s.dev.port n).lane = .data ∧ (s.dev.port n).fresh.waiting = [] ∧ (s.dev.port
      n).rtx.wAct = 0 ∧ (s.dev.port n).rtx.burst = none ∧ (s.dev.port n).up.pauses = [] ∧ isRtx (s.dev.port n).rtx seq slot =
      false ∧ e.data = some data) ∧
    (∃ (s : State) (n : Fin 16) (seq : Seq) (slot : BitVec 4) (e : REntry), s.safe ∧ s.dev.sys.mode = .run ∧ (s.dev.port
      n).link.mode = .gl25 ∧ (s.dev.port n).link.st = .up ∧ findEntry (s.dev.port n).rtx seq slot = some e ∧ slot.toNat < 15
      ∧ laneTx s.dev (s.dev.port n).lane = .data ∧ (s.dev.port n).fresh.waiting = [] ∧ (s.dev.port n).rtx.wAct = 0 ∧
      (s.dev.port n).rtx.burst = none ∧ (s.dev.port n).up.pauses = [] ∧ isRtx (s.dev.port n).rtx seq slot = false ∧ e.data =
      none) ∧
    (∃ (s : State) (n : Fin 16) (seq : Seq) (slot : BitVec 4) (e : REntry), s.safe ∧ s.dev.sys.mode = .run ∧ (s.dev.port
      n).link.mode = .gl25 ∧ (s.dev.port n).link.st = .up ∧ findEntry (s.dev.port n).rtx seq slot = some e ∧ slot.toNat < 15
      ∧ laneTx s.dev (s.dev.port n).lane = .data ∧ (s.dev.port n).fresh.waiting = [] ∧ (s.dev.port n).rtx.wAct = 0 ∧
      (s.dev.port n).rtx.burst = none ∧ (s.dev.port n).up.pauses = [] ∧ isRtx (s.dev.port n).rtx seq slot = true) ∧
    (∃ (s : State) (n : Fin 16) (seq : Seq) (msg : BitVec 3250) (e : REntry), s.safe ∧ s.dev.sys.mode = .run ∧ (s.dev.port
      n).link.mode = .gl25 ∧ (s.dev.port n).link.st = .up ∧ (s.dev.port n).line.svc = some msg ∧ (s.dev.port n).rtx.newest =
      some (seq + 5) ∧ (s.dev.port n).rtx.wAct ≠ 0 ∧ e ∈ (s.dev.port n).rtx.entries ∧ e.seq = seq ∧ e.data = none ∧ isRtx
      (s.dev.port n).rtx e.seq e.slot = false ∧ isDue (s.dev.port n).rtx e.seq e.slot = false) ∧
    (∃ (s : State) (n : Fin 16), s.safe ∧ s.dev.sys.mode = .run ∧ (s.dev.port n).link.mode = .gl25 ∧ (s.dev.port n).link.st =
      .up ∧ (s.dev.port n).line.svc = none) :=
  ⟨⟨st (up0 (trainP fun t => { t with badRun := 6 })), 0, 0, 1, [], 0, 0, by decide +kernel⟩,
   ⟨st (up0 (trainP fun t => { t with badRun := 6 })), 0, 0, 1, noise, by decide +kernel⟩,
   ⟨st (up0 (trainP fun t => { t with badRun := 7 })), 0, 0, 1, noise, by decide +kernel⟩,
   ⟨st (up0 (rtxP fun r => { r with maps := [map4], entries := [⟨3, 2, none, none, none, false⟩] })), 0, 4, 1, [], 0, 0, ⟨3,
     2, none, none, none, false⟩, (true, 1, 2), by decide +kernel⟩,
   ⟨st (up0 (rtxP fun r => { r with played := true, entries := [⟨3, 2, some 9, none, none, false⟩] })), 0, 3, 2, 9, ⟨3, 2,
     some 9, none, none, false⟩, by decide +kernel⟩,
   ⟨st (up0 (rtxP fun r => { r with played := true, entries := [⟨3, 2, none, none, none, false⟩] })), 0, 3, 2, ⟨3, 2, none,
     none, none, false⟩, by decide +kernel⟩,
   ⟨st (up0 (rtxP fun r => { r with played := true, maps := [map4], entries := [⟨4, 1, none, none, none, false⟩] })), 0, 4,
     1, ⟨4, 1, none, none, none, false⟩, by decide +kernel⟩,
   ⟨st (up0 fun p => lineP (fun l => { l with svc := some 0 }) (rtxP (fun r =>
     { r with wAct := 14, newest := some 8, entries := [⟨3, 2, none, none, none, false⟩] }) p)), 0, 3, 0, ⟨3, 2, none, none,
     none, false⟩, by decide +kernel⟩,
   ⟨st up0, 0, by decide +kernel⟩⟩

theorem meets_reception :
    (∃ (s : State) (n : Fin 16), s.safe ∧ s.dev.sys.mode = .run ∧ (s.dev.port n).on = true ∧ (s.dev.port n).link.st = .up ∧
      (s.dev.port n).link.mode.gletik = true ∧ bit s.dev.pwr.padPort n.val = false ∧ isRaised s.dev (srcPort n 8) = false) ∧
    (∃ (s : State) (n : Fin 16), s.safe ∧ s.dev.sys.mode = .run ∧ (s.dev.port n).on = true ∧ (s.dev.port n).link.st ≠ .up ∧
      switchedNow s.dev (s.dev.port n) = none) ∧
    (∃ (s : State) (n : Fin 16), s.safe ∧ s.dev.sys.mode = .run ∧ (s.dev.port n).on = true ∧ (s.dev.port n).rtx.draining =
      true) ∧
    (∃ (s : State) (n : Fin 16) (j : Nat) (seq : Seq) (slot : BitVec 4) (y : List Int) (data : BitVec 3250), s.safe ∧
      s.dev.sys.mode = .run ∧ (s.dev.port n).on = true ∧ inPhase (s.dev.port n) 6 = true ∧ (s.dev.port n).train.goodRun = 15
      ∧ (s.dev.port n).train.locked = false ∧ (s.dev.port n).train.fecLock = false ∧ (s.dev.port n).rtx.draining = false ∧
      (s.dev.port n).link.mode = .gl25 ∧ slot.toNat ≠ 0 ∧ decoded (s.dev.port n) seq slot y = some (j, data)) ∧
    (∃ (s : State) (n : Fin 16) (seq : Seq) (slot : BitVec 4) (y : List Int), s.safe ∧ s.dev.sys.mode = .run ∧ (s.dev.port
      n).on = true ∧ inPhase (s.dev.port n) 6 = true ∧ (s.dev.port n).train.goodRun = 15 ∧ (s.dev.port n).train.locked =
      false ∧ (s.dev.port n).train.fecLock = false ∧ (s.dev.port n).rtx.draining = false ∧ (s.dev.port n).link.mode = .gl25 ∧
      slot.toNat ≠ 0 ∧ decoded (s.dev.port n) seq slot y = none) ∧
    (∃ (s : State) (n : Fin 16), s.safe ∧ s.dev.sys.mode = .run ∧ (s.dev.port n).on = true ∧ (s.dev.port n).link.mode.std =
      true ∧ (s.dev.port n).link.st = .up ∧ laneTx s.dev (s.dev.port n).lane = .data ∧ (s.dev.port n).up.pauses = []) ∧
    (∃ (s : State) (n : Fin 16), s.safe ∧ s.dev.sys.mode = .run ∧ (s.dev.port n).on = true ∧ (s.dev.port n).link.mode.std =
      false) ∧
    (∃ (s : State) (n : Fin 16), s.safe ∧ s.dev.sys.mode = .run ∧ (s.dev.port n).on = true ∧ (s.dev.port
      n).rtx.episode.isSome = true ∧ (s.dev.fn .pf0).ev.st = .run ∧ ringFull (s.dev.fn .pf0).ev.cfg (s.dev.fn .pf0).ev.prod
      (s.dev.fn .pf0).ev.cons = false ∧ (s.dev.fn .pf0).ev.lost = 0 ∧ s.dev.sys.mgrUp = true) ∧
    (∃ (s : State) (n : Fin 16), s.safe ∧ s.dev.sys.mode = .run ∧ (s.dev.port n).on = true ∧ (s.dev.port n).rtx.episode =
      none) ∧
    (∃ (s : State) (n : Fin 16) (w : Seq), s.safe ∧ s.dev.sys.mode = .run ∧ (s.dev.port n).on = true ∧ (s.dev.port
      n).rtx.newest = some w ∧ w.toNat % 64 = 63 ∧ (s.dev.port n).link.mode = .gl25 ∧ bit (s.dev.port n).cfg.rtxCfg 0 = true
      ∧ (s.dev.port n).rtx.winUp = true ∧ (s.dev.port n).rtx.winRtx = false ∧ (s.dev.port n).rtx.prevRtx = false ∧
      (s.dev.port n).link.st = .up ∧ isLive s.dev (srcPort n 2) = false ∧ isRaised s.dev (srcPort n 2) = false ∧ (s.dev.port
      n).rtx.resAct = 12 ∧ (s.dev.port n).rtx.busy ≤ 902) ∧
    (∃ (s : State) (n : Fin 16) (w : Seq), s.safe ∧ s.dev.sys.mode = .run ∧ (s.dev.port n).on = true ∧ (s.dev.port
      n).rtx.newest = some w ∧ w.toNat % 64 = 63 ∧ (s.dev.port n).link.mode = .gl25 ∧ bit (s.dev.port n).cfg.rtxCfg 0 = true
      ∧ (s.dev.port n).rtx.winUp = true ∧ (s.dev.port n).rtx.winRtx = false ∧ (s.dev.port n).rtx.prevRtx = false ∧
      (s.dev.port n).link.st = .up ∧ isLive s.dev (srcPort n 2) = false ∧ isRaised s.dev (srcPort n 2) = false ∧ (s.dev.port
      n).rtx.resAct = 12 ∧ 902 < (s.dev.port n).rtx.busy) ∧
    (∃ (s : State) (n : Fin 16) (k : Fin 4), s.safe ∧ s.dev.sys.mode = .run ∧ (s.dev.port n).on = true ∧ bit (s.dev.port
      n).fresh.armed k.val = true ∧ bit (s.dev.port n).cfg.freshCfg 0 = true ∧ bit (s.dev.port n).cfg.freshCfg (8 + k.val) =
      true ∧ (s.dev.port n).link.st = .up ∧ freshLimit s.dev (s.dev.port n) ≠ 0 ∧ isRaised s.dev (srcPort n (3 + k.val)) =
      false) ∧
    (∃ (s : State) (n : Fin 16) (k : Fin 4), s.safe ∧ s.dev.sys.mode = .run ∧ (s.dev.port n).on = true ∧ bit (s.dev.port
      n).fresh.armed k.val = false) ∧
    (∃ (s : State) (n : Fin 16), s.safe ∧ s.dev.sys.mode = .run ∧ (s.dev.port n).link.st = .down) ∧
    (∃ (s : State) (n : Fin 16), s.safe ∧ s.dev.sys.mode = .run ∧ (s.dev.port n).link.st = .training ∧ (s.dev.port
      n).link.phase = 3 ∧ (s.dev.port n).rx.richWas = .quiet ∧ (s.dev.port n).rx.turns = []) ∧
    (∃ (s : State) (n : Fin 16), s.safe ∧ s.dev.sys.mode = .run ∧ (s.dev.port n).link.st = .training ∧ (s.dev.port
      n).link.phase = 3 ∧ rxSending (s.dev.port n) = false) ∧
    (∃ (s : State) (n : Fin 16) (w : List RxClock), s.safe ∧ s.dev.sys.mode = .run ∧ (s.dev.port n).link.st = .up ∧
      windowMargin s n w ≤ (s.dev.port n).rx.anchorMargin.toInt - revertLoss (s.dev.port n).cfg ∧ (s.dev.port n).rx.rich ≠
      .high ∧ averageLow (windowPort s n w) = false ∧ (s.dev.port n).rx.margins.length < 15 ∧ (s.dev.port n).rx.revertAt = []
      ∧ (s.dev.port n).link.mode = .gl25 ∧ (s.dev.port n).rx.reverts ≠ 255) ∧
    (∃ (s : State) (n : Fin 16), s.safe ∧ s.dev.sys.mode = .run ∧ (s.dev.port n).link.st = .up ∧ (s.dev.port n).rx.held =
      true) ∧
    (∃ (s : State) (n : Fin 16), s.safe ∧ s.dev.sys.mode = .run ∧ (s.dev.port n).rx.held = false) ∧
    (∃ (s : State) (n : Fin 16) (msg : BitVec 3250), s.safe ∧ s.dev.sys.mode = .run ∧ inPhase (s.dev.port n) 7 = true ∧
      (s.dev.port n).link.mode = .gl25 ∧ (s.dev.port n).rtx.draining = false ∧ (parseService msg).ver ≠ 1) ∧
    (∃ (s : State) (n : Fin 16) (msg : BitVec 3250), s.safe ∧ s.dev.sys.mode = .run ∧ inPhase (s.dev.port n) 7 = true ∧
      (s.dev.port n).link.mode = .gl25 ∧ (s.dev.port n).rtx.draining = false ∧ (parseService msg).ver = 1 ∧ bit (s.dev.port
      n).link.cfgNow 6 = false ∧ (s.dev.port n).train.svcRun = 7 ∧ (s.dev.port n).on = true ∧ (windowAtUp (s.dev.port n)).1 =
      0 ∧ s.dev.flt.port[n.val].raised = 0) :=
  ⟨⟨st up0, 0, by decide +kernel⟩,
   ⟨st (linked .down up0), 0, by decide +kernel⟩,
   ⟨st (up0 (rtxP fun r => { r with draining := true })), 0, by decide +kernel⟩,
   ⟨st (inPh 6 fun p => trainP (fun t => { t with goodRun := 15 }) (linkP (fun l => { l with mode := .gl25 }) p)), 0, 0, 0,
     1, [], 0, by decide +kernel⟩,
   ⟨st (inPh 6 fun p => trainP (fun t => { t with goodRun := 15 }) (linkP (fun l => { l with mode := .gl25 }) p)), 0, 0, 1,
     noise, by decide +kernel⟩,
   ⟨st (up0 stdUp), 0, by decide +kernel⟩,
   ⟨st up0, 0, by decide +kernel⟩,
   ⟨st (up0 (rtxP fun r => { r with episode := some (3, 2, 1, {}, {}) })), 0, by decide +kernel⟩,
   ⟨st up0, 0, by decide +kernel⟩,
   ⟨st (up0 (rtxP fun r => { r with winUp := true, newest := some 63, busy := 902 })), 0, 63, by decide +kernel⟩,
   ⟨st (up0 (rtxP fun r => { r with winUp := true, newest := some 63, busy := 903 })), 0, 63, by decide +kernel⟩,
   ⟨st
     { (up0 fun p => { p with fresh := { p.fresh with armed := 8 }, cfg := { p.cfg with freshCfg := 0x0F21 } }) with raster := { rig.raster with lines := 100, lp := 0x0064_0000 } },
     0, 3, by decide +kernel⟩,
   ⟨st up0, 0, 0, by decide +kernel⟩,
   ⟨st rig, 0, by decide +kernel⟩,
   ⟨st (inPh 3 fun p => { p with rx := { p.rx with rich := .quiet } }), 0, by decide +kernel⟩,
   ⟨st (inPh 3 (trainP fun t => { t with anRun := true })), 0, by decide +kernel⟩,
   ⟨st (up0 fun p =>
     { p with rx := { p.rx with anchorMargin := 0x7000, rich := .quiet, chain := { p.rx.chain with delay := List.replicate 24 [5000] } } }),
     0, clock0, by decide +kernel⟩,
   ⟨st (up0 fun p => { p with rx := { p.rx with held := true } }), 0, by decide +kernel⟩,
   ⟨st up0, 0, by decide +kernel⟩,
   ⟨st (inPh 7 (linkP fun l => { l with mode := .gl25 })), 0, 0, by decide +kernel⟩,
   ⟨st (inPh 7 fun p => linkP (fun l => { l with mode := .gl25, cfgNow := 0x1430 }) (trainP (fun t => { t with svcRun := 7 })
     p)), 0, 1 <<< 3246, by decide +kernel⟩⟩

theorem meets_shroudFilters :
    (∃ (s : State) (n src : Fin 16) (far : Bool) (f : Filt), s.safe ∧ powered s.dev = true ∧ n ≠ src ∧ f = filt (s.dev.port
      n) src far ∧ (s.dev.port n).link.st ≠ .training ∧ srcValid s.dev src far = true ∧ filterUsed s.dev n src far = true ∧
      (f.st = 0 ∨ (f.st = 6 ∧ f.tag ≠ srcTag s.dev src far))) ∧
    (∃ (s : State) (n src : Fin 16) (far : Bool) (f : Filt), s.safe ∧ powered s.dev = true ∧ n ≠ src ∧ f = filt (s.dev.port
      n) src far ∧ (s.dev.port n).link.st ≠ .training ∧ srcValid s.dev src far = true ∧ filterUsed s.dev n src far = true ∧
      ((f.st = 6 ∨ f.st = 5)) ∧ f.tag = srcTag s.dev src far) ∧
    (∃ (s : State) (n src : Fin 16) (far : Bool) (f : Filt), s.safe ∧ powered s.dev = true ∧ n ≠ src ∧ f = filt (s.dev.port
      n) src far ∧ (s.dev.port n).link.st ≠ .training ∧ srcValid s.dev src far = true ∧ filterUsed s.dev n src far = true ∧
      (f.st = 1 ∨ f.st = 2 ∨ f.st = 3 ∨ f.st = 4 ∨ f.st = 7)) ∧
    (∃ (s : State) (n src : Fin 16) (far : Bool) (f : Filt), s.safe ∧ powered s.dev = true ∧ n ≠ src ∧ f = filt (s.dev.port
      n) src far ∧ (s.dev.port n).link.st ≠ .training ∧ srcValid s.dev src far = false ∧ (f.st = 4 ∨ f.st = 3) ∧ justLeft
      s.dev f 2 = false) ∧
    (∃ (s : State) (n src : Fin 16) (far : Bool) (f : Filt), s.safe ∧ powered s.dev = true ∧ n ≠ src ∧ f = filt (s.dev.port
      n) src far ∧ (s.dev.port n).link.st ≠ .training ∧ srcValid s.dev src far = false ∧ (f.st = 4 ∨ f.st = 3) ∧ justLeft
      s.dev f 2 = true) ∧
    (∃ (s : State) (n src : Fin 16) (far : Bool) (f : Filt), s.safe ∧ powered s.dev = true ∧ n ≠ src ∧ f = filt (s.dev.port
      n) src far ∧ (s.dev.port n).link.st ≠ .training ∧ srcValid s.dev src far = false ∧ (f.st = 1 ∨ f.st = 2 ∨ f.st = 7)) ∧
    (∃ (s : State) (n src : Fin 16) (far : Bool) (f : Filt), s.safe ∧ powered s.dev = true ∧ n ≠ src ∧ f = filt (s.dev.port
      n) src far ∧ (s.dev.port n).link.st ≠ .training ∧ srcValid s.dev src far = false ∧ (f.st = 0 ∨ f.st = 5 ∨ f.st = 6)) ∧
    (∃ (s : State) (n src : Fin 16) (far : Bool) (f : Filt), s.safe ∧ powered s.dev = true ∧ n ≠ src ∧ f = filt (s.dev.port
      n) src far ∧ (s.dev.port n).link.st ≠ .training ∧ f.st = 7) ∧
    (∃ (s : State) (n src : Fin 16) (far : Bool) (f : Filt), s.safe ∧ powered s.dev = true ∧ n ≠ src ∧ f = filt (s.dev.port
      n) src far ∧ (s.dev.port n).link.st ≠ .training ∧ f.st ≠ 7) ∧
    (∃ (s : State) (n src : Fin 16) (far : Bool) (f : Filt), s.safe ∧ powered s.dev = true ∧ n ≠ src ∧ f = filt (s.dev.port
      n) src far ∧ (s.dev.port n).link.st ≠ .training ∧ usValid s.dev src = false ∧ dsValid s.dev src = false ∧ f.st = 3) ∧
    (∃ (s : State) (n src : Fin 16) (far : Bool) (f : Filt), s.safe ∧ powered s.dev = true ∧ n ≠ src ∧ f = filt (s.dev.port
      n) src far ∧ (s.dev.port n).link.st ≠ .training ∧ usValid s.dev src = false ∧ dsValid s.dev src = false ∧ f.st = 5 ∧
      sameBundle s.dev n src = true ∧ fld s.dev.sys.shrCfg 31 24 ≠ 0) ∧
    (∃ (s : State) (n src : Fin 16) (far : Bool) (f : Filt), s.safe ∧ powered s.dev = true ∧ n ≠ src ∧ f = filt (s.dev.port
      n) src far ∧ (s.dev.port n).link.st ≠ .training ∧ usValid s.dev src = false ∧ dsValid s.dev src = false ∧ f.st = 5 ∧
      sameBundle s.dev n src = false) ∧
    (∃ (s : State) (n src : Fin 16) (far : Bool) (f : Filt), s.safe ∧ powered s.dev = true ∧ n ≠ src ∧ f = filt (s.dev.port
      n) src far ∧ (s.dev.port n).link.st ≠ .training ∧ justLeft s.dev f 6 = false) ∧
    (∃ (s : State) (n src : Fin 16) (far : Bool) (f : Filt) (l : Leave), s.safe ∧ powered s.dev = true ∧ n ≠ src ∧ f = filt
      (s.dev.port n) src far ∧ (s.dev.port n).link.st ≠ .training ∧ (s.dev.port n).shr.leaves = [l] ∧ l.what = .portDown ∧
      (s.dev.port n).link.st = .up) ∧
    (∃ (s : State) (n src : Fin 16) (far : Bool) (f : Filt), s.safe ∧ powered s.dev = true ∧ n ≠ src ∧ f = filt (s.dev.port
      n) src far ∧ (s.dev.port n).link.st ≠ .training ∧ (s.dev.port n).shr.leaves = []) :=
  ⟨⟨st (filt01 {}), 0, 1, false, {}, by decide +kernel⟩,
   ⟨st (filt01 { st := 5, tag := srcTag bundled 1 false }), 0, 1, false, { st := 5, tag := srcTag bundled 1 false }, by
     decide +kernel⟩,
   ⟨st (filt01 { st := 3 }), 0, 1, false, { st := 3 }, by decide +kernel⟩,
   ⟨st (filt01 { st := 4 } (bundled.modPort 1 (linkP fun l => { l with st := .down }))), 0, 1, false, { st := 4 }, by
     decide +kernel⟩,
   ⟨st (filt01 { st := 3, was := 2, since := 1000 } (bundled.modPort 1 (linkP fun l => { l with st := .down }))), 0, 1,
     false, { st := 3, was := 2, since := 1000 }, by decide +kernel⟩,
   ⟨st (filt01 { st := 7 } (bundled.modPort 1 (linkP fun l => { l with st := .down }))), 0, 1, false, { st := 7 }, by
     decide +kernel⟩,
   ⟨st (filt01 { st := 6 } (bundled.modPort 1 (linkP fun l => { l with st := .down }))), 0, 1, false, { st := 6 }, by
     decide +kernel⟩,
   ⟨st (filt01 { st := 7 }), 0, 1, false, { st := 7 }, by decide +kernel⟩,
   ⟨st (filt01 { st := 3 }), 0, 1, false, { st := 3 }, by decide +kernel⟩,
   ⟨st (filt01 { st := 3 } (bundled.modPort 1 (linkP fun l => { l with st := .down }))), 0, 1, false, { st := 3 }, by
     decide +kernel⟩,
   ⟨st (filt01 { st := 5 } (bundled.modPort 1 (linkP fun l => { l with st := .down }))), 0, 1, false, { st := 5 }, by
     decide +kernel⟩,
   ⟨st (filt01 { st := 5 }  rig), 0, 1, false, { st := 5 }, by decide +kernel⟩,
   ⟨st (filt01 { st := 5 }  rig), 0, 1, false, { st := 5 }, by decide +kernel⟩,
   ⟨st (atP (fun p => { p with shr := { p.shr with leaves := [⟨.portDown, none, 0, 5⟩] } }) bundled), 0, 1, false, {},
     ⟨.portDown, none, 0, 5⟩, by decide +kernel⟩,
   ⟨st bundled, 0, 1, false, {}, by decide +kernel⟩⟩

theorem meets_linkServices :
    (∃ (s : State) (n : Fin 16) (tag : W8) (x : OamX), s.safe ∧ s.dev.sys.mode = .run ∧ bit s.dev.pwr.padPort n.val = false ∧
      (s.dev.port n).on = true ∧ (s.dev.port n).oam.live = [x] ∧ x.isReg = true ∧ x.tag = tag ∧ x.sent ≠ 0 ∧ x.tries < 3) ∧
    (∃ (s : State) (n : Fin 16) (tag : W8) (x : OamX) (h : W16) (o : Op), s.safe ∧ s.dev.sys.mode = .run ∧ bit
      s.dev.pwr.padPort n.val = false ∧ (s.dev.port n).on = true ∧ (s.dev.port n).oam.live = [x] ∧ x.isReg = true ∧ x.tag =
      tag ∧ x.sent ≠ 0 ∧ 3 ≤ x.tries ∧ x.op = some h ∧ findOp s.dev h = some o ∧ o.final = none) ∧
    (∃ (s : State) (n : Fin 16), s.safe ∧ s.dev.sys.mode = .run ∧ bit s.dev.pwr.padPort n.val = false ∧ (s.dev.port n).on =
      true ∧ (s.dev.port n).oam.live = []) ∧
    (∃ (s : State) (n : Fin 16), s.safe ∧ s.dev.sys.mode = .run ∧ bit s.dev.pwr.padPort n.val = false ∧ (s.dev.port n).on =
      true ∧ bit (s.dev.port n).cfg.pwrCfg 0 = true ∧ (s.dev.port n).link.st = .up ∧ (s.dev.port n).link.mode = .gl25 ∧
      reefPlan (s.dev.port n) = none) ∧
    (∃ (s : State) (n : Fin 16), s.safe ∧ s.dev.sys.mode = .run ∧ bit s.dev.pwr.padPort n.val = false ∧ (s.dev.port n).on =
      true ∧ bit (s.dev.port n).cfg.pwrCfg 0 = false ∧ (s.dev.port n).link.reefRetry = false ∧ (s.dev.port n).link.st = .up) ∧
    (∃ (s : State) (n : Fin 16), s.safe ∧ s.dev.sys.mode = .run ∧ bit s.dev.pwr.padPort n.val = false ∧ (s.dev.port n).on =
      true ∧ (s.dev.port n).link.reefRetry = false ∧ (s.dev.port n).link.st = .reef1) ∧
    (∃ (s : State) (n : Fin 16), s.safe ∧ s.dev.sys.mode = .run ∧ bit s.dev.pwr.padPort n.val = false ∧ (s.dev.port n).on =
      true ∧ bit (s.dev.port n).cfg.pwrCfg 0 = true ∧ fld (s.dev.port n).cfg.pwrCfg 15 4 ≠ 0 ∧ (s.dev.port n).link.st =
      .reef1 ∧ (s.dev.port n).link.mode = .gl25 ∧ reefPlan (s.dev.port n) = none) ∧
    (∃ (s : State) (n : Fin 16), s.safe ∧ s.dev.sys.mode = .run ∧ bit s.dev.pwr.padPort n.val = false ∧ (s.dev.port n).on =
      true ∧ (s.dev.port n).link.st = .reef1 ∧ (s.dev.port n).link.mode = .gl25 ∧ (s.dev.port n).line.refreshBad = 1 ∧
      (s.dev.port n).line.reefAt = none) ∧
    (∃ (s : State) (n : Fin 16), s.safe ∧ s.dev.sys.mode = .run ∧ bit s.dev.pwr.padPort n.val = false ∧ (s.dev.port n).on =
      true ∧ (s.dev.port n).link.st = .training ∧ (s.dev.port n).train.toneOn = true ∧ (s.dev.port n).link.fast = true) ∧
    (∃ (s : State) (n : Fin 16) (m : LineMode), s.safe ∧ s.dev.sys.mode = .run ∧ bit s.dev.pwr.padPort n.val = false ∧
      (s.dev.port n).on = true ∧ (s.dev.port n).line.dsTarget = some m ∧ m ≠ .t10g ∧ (s.dev.port n).link.st = .up ∧ 4 ≤
      (s.dev.port n).line.dsSent ∧ switchAsked (s.dev.port n) = false ∧ s.dev.hal.cal = []) ∧
    (∃ (s : State) (n : Fin 16), s.safe ∧ s.dev.sys.mode = .run ∧ bit s.dev.pwr.padPort n.val = false ∧ (s.dev.port n).on =
      true ∧ (s.dev.port n).line.dsTarget = none) ∧
    (∃ (s : State) (n : Fin 16), s.safe ∧ s.dev.sys.mode = .run ∧ bit s.dev.pwr.padPort n.val = false ∧ (s.dev.port n).on =
      true ∧ (s.dev.port n).line.dsBlocked = false) ∧
    (∃ (s : State) (n : Fin 16), s.safe ∧ s.dev.sys.mode = .run ∧ bit s.dev.pwr.padPort n.val = false ∧ (s.dev.port n).on =
      true ∧ (s.dev.port n).line.dsBlocked = true) ∧
    (∃ (s : State) (n : Fin 16) (m : LineMode), s.safe ∧ s.dev.sys.mode = .run ∧ bit s.dev.pwr.padPort n.val = false ∧
      (s.dev.port n).on = true ∧ mayPlan (s.dev.port n) = true ∧ plannedMode (s.dev.port n) = some m ∧ (s.dev.port
      n).diag.fcastValid = true) ∧
    (∃ (s : State) (n : Fin 16), s.safe ∧ s.dev.sys.mode = .run ∧ bit s.dev.pwr.padPort n.val = false ∧ (s.dev.port n).on =
      true ∧ (s.dev.port n).diag.fcastValid = false) ∧
    (∃ (s : State) (n : Fin 16), s.safe ∧ s.dev.sys.mode = .run ∧ bit s.dev.pwr.padPort n.val = false ∧ (s.dev.port n).on =
      true ∧ (s.dev.port n).link.st = .up ∧ (s.dev.port n).attic.on = true ∧ (s.dev.port n).pc.up = true ∧ (s.dev.port
      n).attic.dmaHalt = false) ∧
    (∃ (s : State) (n : Fin 16), s.safe ∧ s.dev.sys.mode = .run ∧ bit s.dev.pwr.padPort n.val = false ∧ (s.dev.port n).on =
      true ∧ (s.dev.port n).attic.on = false) :=
  ⟨⟨st (up0 fun p => { p with oam := { p.oam with live := [reg0 2] } }), 0, 3, reg0 2, by decide +kernel⟩,
   ⟨st (withOps [op5 (.oamSend 0 1 4 0)] (up0 fun p => { p with oam := { p.oam with live := [reg0 3] } })), 0, 3, reg0 3, 5,
     op5 (.oamSend 0 1 4 0), by decide +kernel⟩,
   ⟨st up0, 0, by decide +kernel⟩,
   ⟨st up0, 0, by decide +kernel⟩,
   ⟨st (up0 (cfgP fun c => { c with pwrCfg := 0 })), 0, by decide +kernel⟩,
   ⟨st (linked .reef1 (up0 (lineP fun l => { l with refreshBad := 1 }))), 0, by decide +kernel⟩,
   ⟨st (linked .reef1 up0), 0, by decide +kernel⟩,
   ⟨st (linked .reef1 (up0 (lineP fun l => { l with refreshBad := 1 }))), 0, by decide +kernel⟩,
   ⟨st (inPh 2 fun p => trainP (fun t => { t with toneOn := true }) (linkP (fun l => { l with fast := true }) p)), 0, by
     decide +kernel⟩,
   ⟨st (up0 (lineP fun l => { l with dsTarget := some .gl12, dsSent := 4 })), 0, .gl12, by decide +kernel⟩,
   ⟨st up0, 0, by decide +kernel⟩,
   ⟨st up0, 0, by decide +kernel⟩,
   ⟨st (up0 (lineP fun l => { l with dsBlocked := true })), 0, by decide +kernel⟩,
   ⟨st (up0 fun p => linkP (fun l => { l with cfgNow := 0x007F_1470, partner := 0x0700_0000, partnerValid := true })
     { p with diag := { p.diag with fcastValid := true } }), 0, .gl12, by decide +kernel⟩,
   ⟨st up0, 0, by decide +kernel⟩,
   ⟨st (up0 fun p => { p with attic := { p.attic with on := true } }), 0, by decide +kernel⟩,
   ⟨st up0, 0, by decide +kernel⟩⟩

theorem meets_standardModes :
    (∃ (s : State) (n : Fin 16) (m : LineMode), s.safe ∧ s.dev.sys.mode = .run ∧ bit s.dev.pwr.padPort n.val = false ∧
      (s.dev.port n).on = true ∧ (s.dev.port n).link.st = .training ∧ (s.dev.port n).train.anRun = true ∧ m.std = true ∧
      m.inMap (s.dev.port n).std.advert.toNat = true) ∧
    (∃ (s : State) (n : Fin 16) (m : LineMode), s.safe ∧ s.dev.sys.mode = .run ∧ bit s.dev.pwr.padPort n.val = false ∧
      (s.dev.port n).on = true ∧ m.inMap (s.dev.port n).std.advert.toNat = false) ∧
    (∃ (s : State) (n : Fin 16), s.safe ∧ s.dev.sys.mode = .run ∧ bit s.dev.pwr.padPort n.val = false ∧ (s.dev.port n).on =
      true ∧ (s.dev.port n).link.st = .training ∧ (s.dev.port n).train.pmaRun = true ∧ (s.dev.port n).link.mode = .t2g5 ∧
      s.dev.flt.port[n.val].raised = 0) ∧
    (∃ (s : State) (n : Fin 16), s.safe ∧ s.dev.sys.mode = .run ∧ bit s.dev.pwr.padPort n.val = false ∧ (s.dev.port n).on =
      true ∧ (s.dev.port n).train.pmaRun = false) ∧
    (∃ (s : State) (n : Fin 16), s.safe ∧ s.dev.sys.mode = .run ∧ bit s.dev.pwr.padPort n.val = false ∧ (s.dev.port n).on =
      true ∧ (s.dev.port n).link.st = .up ∧ (s.dev.port n).link.mode.std = true ∧ s.dev.flt.port[n.val].raised = 0 ∧
      (s.dev.port n).std.linkFails ≠ 255) ∧
    (∃ (s : State) (n : Fin 16), s.safe ∧ s.dev.sys.mode = .run ∧ bit s.dev.pwr.padPort n.val = false ∧ (s.dev.port n).on =
      true ∧ (s.dev.port n).link.mode.std = false) ∧
    (∃ (s : State) (n : Fin 16), s.safe ∧ s.dev.sys.mode = .run ∧ bit s.dev.pwr.padPort n.val = false ∧ (s.dev.port n).on =
      true ∧ (s.dev.port n).link.st = .up ∧ (s.dev.port n).link.mode.std = true ∧ bit (s.dev.port n).link.stdNow 22 = true ∧
      bit (s.dev.port n).link.stdNow 21 = true ∧ (s.dev.dt.running = true → (s.dev.port n).link.wakeTick ≠ some s.dev.dt.dt)) ∧
    (∃ (s : State) (n : Fin 16), s.safe ∧ s.dev.sys.mode = .run ∧ bit s.dev.pwr.padPort n.val = false ∧ (s.dev.port n).on =
      true ∧ (s.dev.port n).link.st = .up ∧ (s.dev.port n).link.mode.std = true ∧ (s.dev.port n).std.handshake = false) ∧
    (∃ (s : State) (n : Fin 16), s.safe ∧ s.dev.sys.mode = .run ∧ bit s.dev.pwr.padPort n.val = false ∧ (s.dev.port n).on =
      true ∧ (s.dev.port n).link.st = .up ∧ (s.dev.port n).link.mode.std = true ∧ (s.dev.port n).std.handshake = true ∧
      (s.dev.dt.running = true → (s.dev.port n).link.wakeTick ≠ some s.dev.dt.dt)) ∧
    (∃ (s : State) (n : Fin 16), s.safe ∧ s.dev.sys.mode = .run ∧ bit s.dev.pwr.padPort n.val = false ∧ (s.dev.port n).on =
      true ∧ (s.dev.port n).link.st = .reef1 ∧ (s.dev.port n).std.handshake = true) ∧
    (∃ (s : State) (n : Fin 16), s.safe ∧ s.dev.sys.mode = .run ∧ bit s.dev.pwr.padPort n.val = false ∧ (s.dev.port n).on =
      true ∧ (s.dev.port n).link.st = .reef2 ∧ (s.dev.port n).link.mode.std = true) ∧
    (∃ (s : State) (n : Fin 16), s.safe ∧ s.dev.sys.mode = .run ∧ bit s.dev.pwr.padPort n.val = false ∧ (s.dev.port n).on =
      true ∧ (s.dev.port n).link.st = .reef1 ∧ (s.dev.port n).link.mode.std = true ∧ (s.dev.port n).line.reefAt = none ∧
      s.dev.flt.port[n.val].raised = 0) ∧
    (∃ (s : State) (n : Fin 16) (oam : Bool), s.safe ∧ s.dev.sys.mode = .run ∧ bit s.dev.pwr.padPort n.val = false ∧
      (s.dev.port n).on = true ∧ (s.dev.port n).link.st = .up ∧ (s.dev.port n).link.mode = .t10g ∧ (s.dev.port n).std.eee =
      true ∧ oam = true) ∧
    (∃ (s : State) (n : Fin 16), s.safe ∧ s.dev.sys.mode = .run ∧ bit s.dev.pwr.padPort n.val = false ∧ (s.dev.port n).on =
      true ∧ (s.dev.port n).link.st = .up ∧ (s.dev.port n).link.mode = .t10g ∧ (s.dev.port n).std.eee = true ∧ laneTx s.dev
      (s.dev.port n).lane = .data ∧ (s.dev.port n).up.pauses = []) ∧
    (∃ (s : State) (n : Fin 16), s.safe ∧ s.dev.sys.mode = .run ∧ bit s.dev.pwr.padPort n.val = false ∧ (s.dev.port n).on =
      true ∧ (s.dev.port n).std.eee = false) ∧
    (∃ (s : State) (n : Fin 16), s.safe ∧ s.dev.sys.mode = .run ∧ bit s.dev.pwr.padPort n.val = false ∧ (s.dev.port n).on =
      true ∧ (s.dev.port n).link.st = .up ∧ (s.dev.port n).link.mode.std = true ∧ (s.dev.port n).std.oam = true) ∧
    (∃ (s : State) (n : Fin 16), s.safe ∧ s.dev.sys.mode = .run ∧ bit s.dev.pwr.padPort n.val = false ∧ (s.dev.port n).on =
      true ∧ (s.dev.port n).std.oam = false) :=
  ⟨⟨st (inPh 1 fun p => trainP (fun t => { t with anRun := true }) (stdP (fun s => { s with advert := 0x78 }) p)), 0, .t1g, by
  decide +kernel⟩,
   ⟨st up0, 0, .t1g, by decide +kernel⟩,
   ⟨st (inPh 1 fun p => trainP (fun t => { t with pmaRun := true }) (linkP (fun l => { l with mode := .t2g5 }) p)), 0, by
     decide +kernel⟩,
   ⟨st up0, 0, by decide +kernel⟩,
   ⟨st (up0 fun p => stdP (fun s => { s with linkFails := 254 }) (stdUp p)), 0, by decide +kernel⟩,
   ⟨st up0, 0, by decide +kernel⟩,
   ⟨st (up0 fun p => cfgP (fun c => { c with stdCfg := 0x29F0_0000 }) (stdUp p)), 0, by decide +kernel⟩,
   ⟨st (up0 stdUp), 0, by decide +kernel⟩,
   ⟨st (up0 fun p => stdP (fun s => { s with handshake := true }) (stdUp p)), 0, by decide +kernel⟩,
   ⟨st (linked .reef1 (up0 fun p => stdP (fun s => { s with handshake := true }) (stdUp p))), 0, by decide +kernel⟩,
   ⟨st (linked .reef2 (up0 stdUp)), 0, by decide +kernel⟩,
   ⟨st (linked .reef1 (up0 stdUp)), 0, by decide +kernel⟩,
   ⟨st (up0 fun p => stdP (fun s => { s with eee := true }) (linkP (fun l => { l with mode := .t10g }) p)), 0, true, by
     decide +kernel⟩,
   ⟨st (up0 fun p => stdP (fun s => { s with eee := true }) (linkP (fun l => { l with mode := .t10g }) p)), 0, by
     decide +kernel⟩,
   ⟨st up0, 0, by decide +kernel⟩,
   ⟨st (up0 fun p => stdP (fun s => { s with oam := true }) (stdUp p)), 0, by decide +kernel⟩,
   ⟨st up0, 0, by decide +kernel⟩⟩

theorem meets_deviceTime :
    (∃ (s : State) (rising : Bool), s.safe ∧ powered s.dev = true ∧ s.dev.dt.running = true ∧ rising = !bit s.dev.dt.cfg 2 ∧
      s.dev.dt.caps.length = 4) ∧
    (∃ (s : State) (rising : Bool), s.safe ∧ powered s.dev = true ∧ rising = bit s.dev.dt.cfg 2) ∧
    (∃ (s : State), s.safe ∧ powered s.dev = true ∧ s.dev.dt.running = true ∧ srcAct s.dev = 1 ∧ s.dev.dt.ppsMiss ≠ 255) ∧
    (∃ (s : State), s.safe ∧ powered s.dev = true ∧ s.dev.dt.running = true ∧ srcAct s.dev = 1 ∧ s.dev.dt.locked = false) ∧
    (∃ (s : State), s.safe ∧ powered s.dev = true ∧ srcAct s.dev ≠ 1) ∧
    (∃ (s : State) (o : Op) (mode : W8) (value value' : W64), s.safe ∧ powered s.dev = true ∧ s.dev.dt.slewOp = some o.handle
      ∧ findOp s.dev o.handle = some o ∧ o.final = none ∧ o.cmd = .timeSet mode value value' ∧ s.dev.dt.slew.natAbs < 655360
      * 1000000000 ∧ 0 ≤ s.dev.dt.rest ∧ s.dev.dt.rest < 1000000000) ∧
    (∃ (s : State), s.safe ∧ powered s.dev = true ∧ s.dev.dt.slew = 0 ∧ s.dev.dt.slewOp = none) :=
  ⟨⟨st { rig with dt := { rig.dt with caps := [4, 3, 2, 1] } }, true, by decide +kernel⟩,
   ⟨st rig, false, by decide +kernel⟩,
   ⟨st { rig with dt := { rig.dt with cfg := 1, ppsMiss := 254 } }, by decide +kernel⟩,
   ⟨st { rig with dt := { rig.dt with cfg := 1 } }, by decide +kernel⟩,
   ⟨st rig, by decide +kernel⟩,
   ⟨st (withOps [op5 (.timeSet 1 0 0)] { rig with dt := { rig.dt with slewOp := some 5, slew := 9 } }), op5 (.timeSet 1 0 0),
     1, 0, 0, by decide +kernel⟩,
   ⟨st rig, by decide +kernel⟩⟩

theorem meets_rasters :
    (∃ (s : State) (rising : Bool), s.safe ∧ s.dev.sys.mode = .run ∧ s.dev.dt.running = true ∧ rising = !bit
      s.dev.hal.fsyncCfg 13 ∧ s.dev.raster.next = none ∧ effLock s.dev = 1 ∧ s.dev.raster.set = true ∧ (∃ x ∈
      s.dev.raster.lastEdge, 2 * (((s.dev.dt.dt.toNat : Int) + s.dev.hal.fsyncOfs.toInt) * 65536 - x) <
      s.dev.raster.frameLen)) ∧
    (∃ (s : State) (rising : Bool), s.safe ∧ s.dev.sys.mode = .run ∧ s.dev.dt.running = true ∧ rising = !bit
      s.dev.hal.fsyncCfg 13 ∧ s.dev.raster.next = none ∧ effLock s.dev = 1 ∧ s.dev.raster.set = true ∧ s.dev.raster.lastEdge
      = none ∧ s.dev.raster.st = .holdover ∧ (((s.dev.dt.dt.toNat : Int) + s.dev.hal.fsyncOfs.toInt) * 65536 -
      s.dev.raster.frameStart (((s.dev.dt.dt.toNat : Int) + s.dev.hal.fsyncOfs.toInt) * 65536) (nearestFrame s.dev.raster
      (((s.dev.dt.dt.toNat : Int) + s.dev.hal.fsyncOfs.toInt) * 65536))).natAbs ≤ s.dev.raster.lp.toNat) ∧
    (∃ (s : State) (rising : Bool) (n : Fin 16), s.safe ∧ s.dev.sys.mode = .run ∧ s.dev.dt.running = true ∧ rising = !bit
      s.dev.hal.fsyncCfg 13 ∧ s.dev.raster.next = none ∧ effLock s.dev = 1 ∧ s.dev.raster.set = true ∧ s.dev.raster.lastEdge
      = none ∧ s.dev.raster.st = .holdover ∧ s.dev.raster.lp.toNat < (((s.dev.dt.dt.toNat : Int) + s.dev.hal.fsyncOfs.toInt)
      * 65536 - s.dev.raster.frameStart (((s.dev.dt.dt.toNat : Int) + s.dev.hal.fsyncOfs.toInt) * 65536) (nearestFrame
      s.dev.raster (((s.dev.dt.dt.toNat : Int) + s.dev.hal.fsyncOfs.toInt) * 65536))).natAbs ∧ s.dev.hal.cal = [] ∧
      (s.dev.port n).raster.st ≠ .locked) ∧
    (∃ (s : State) (rising : Bool), s.safe ∧ s.dev.sys.mode = .run ∧ rising = bit s.dev.hal.fsyncCfg 13) ∧
    (∃ (s : State), s.safe ∧ s.dev.sys.mode = .run ∧ s.dev.raster.st = .locked ∧ effLock s.dev ≠ 0 ∧ (s.dev.fn .pf0).ev.st =
      .run ∧ ringFull (s.dev.fn .pf0).ev.cfg (s.dev.fn .pf0).ev.prod (s.dev.fn .pf0).ev.cons = false ∧ (s.dev.fn
      .pf0).ev.lost = 0 ∧ s.dev.sys.mgrUp = true) ∧
    (∃ (s : State), s.safe ∧ s.dev.sys.mode = .run ∧ s.dev.raster.st ≠ .locked) ∧
    (∃ (s : State), s.safe ∧ s.dev.sys.mode = .run ∧ s.dev.raster.st ≠ .holdover) ∧
    (∃ (s : State) (r : RasterParams) (o : Op), s.safe ∧ s.dev.sys.mode = .run ∧ s.dev.raster.next = some (r, some o.handle)
      ∧ r.lockSrc ≠ 1 ∧ findOp s.dev o.handle = some o ∧ o.final = none ∧ s.dev.hal.cal = [] ∧ s.dev.raster.avail = false ∧
      s.dev.dt.coarse = false ∧ r.lines ≠ 0 ∧ r.lp ≠ 0 ∧ s.dev.dt.dt.toNat < 2 ^ 62 ∧ r.anchor.toNat < 2 ^ 62) ∧
    (∃ (s : State), s.safe ∧ s.dev.sys.mode = .run ∧ s.dev.raster.set = true ∧ fld s.dev.hal.fsyncCfg 15 14 = 0 ∧
      s.dev.dt.running = true ∧ s.dev.dt.dt < dtOf (s.dev.raster.frameStart s.dev.t16 ((s.dev.raster.posAt s.dev.t16).frame +
      1))) ∧
    (∃ (s : State), s.safe ∧ s.dev.sys.mode = .run ∧ fld s.dev.hal.fsyncCfg 15 14 ≠ 0) ∧
    (∃ (s : State), s.safe ∧ s.dev.sys.mode = .run ∧ s.dev.hal.fsyncHigh = false) ∧
    (∃ (s : State), s.safe ∧ s.dev.sys.mode = .run ∧ s.dev.hal.fsyncHigh = true ∧ s.dev.dt.running = true ∧ s.dev.dt.dt <
      s.dev.hal.fsyncAt + BitVec.ofNat 64 (outWidth s.dev)) ∧
    (∃ (s : State) (n : Fin 16), s.safe ∧ s.dev.sys.mode = .run ∧ isLive s.dev (srcPort n 7) = false ∧ s.dev.raster.avail =
      true) ∧
    (∃ (s : State) (n : Fin 16), s.safe ∧ s.dev.sys.mode = .run ∧ (s.dev.port n).raster.retry = true ∧ (s.dev.port
      n).raster.st = .steering ∧ s.dev.raster.avail = true ∧ (s.dev.port n).raster.sets ≠ 255) ∧
    (∃ (s : State) (n : Fin 16), s.safe ∧ s.dev.sys.mode = .run ∧ (s.dev.port n).raster.retry = false) ∧
    (∃ (s : State) (n : Fin 16) (e : CalEntry), s.safe ∧ s.dev.sys.mode = .run ∧ (s.dev.port n).raster.st = .locked ∧
      s.dev.raster.set = true ∧ (s.dev.port n).link.st = .up ∧ s.dev.hal.cal = [e] ∧ e.trig = 3 ∧ e.action = 0x01 ∧ bit
      e.ports n.val = true ∧ bit e.done n.val = false ∧ e.plan = [] ∧ s.dev.dt.dt.toNat < 2 ^ 62 ∧ s.dev.raster.anchor.natAbs
      < 2 ^ 78 ∧ (s.dev.port n).raster.opened < 0) ∧
    (∃ (s : State) (n : Fin 16), s.safe ∧ s.dev.sys.mode = .run ∧ (s.dev.port n).raster.st = .none) :=
  ⟨⟨st (rast .locked fun r => { r with lastEdge := some (1000 * 65536 - 1) }), true, by decide +kernel⟩,
   ⟨st (rast .holdover fun r => { r with anchor := 900 * 65536 }), true, by decide +kernel⟩,
   ⟨st (rast .holdover fun r => { r with anchor := 900 * 65536 - 1 }), true, 0, by decide +kernel⟩,
   ⟨st (rast .locked), false, by decide +kernel⟩,
   ⟨st (rast .locked), by decide +kernel⟩,
   ⟨st rig, by decide +kernel⟩,
   ⟨st rig, by decide +kernel⟩,
   ⟨st (withOps [op5 (.rasterSet rset)] { rig with raster := { rig.raster with next := some (rset, some 5) } }), rset, op5
     (.rasterSet rset), by decide +kernel⟩,
   ⟨st (rast .locked), by decide +kernel⟩,
   ⟨st { rig with hal := { rig.hal with fsyncCfg := 0x4000 } }, by decide +kernel⟩,
   ⟨st rig, by decide +kernel⟩,
   ⟨st
     { rig with hal := { rig.hal with fsyncHigh := true, fsyncAt := 1000 }, raster := (rast .locked).raster, pins := { rig.pins with fsyncOut := true } },
     by decide +kernel⟩,
   ⟨st (rast .locked), 0, by decide +kernel⟩,
   ⟨st (rast .locked id (atP fun p => { p with raster := { p.raster with retry := true, st := .steering } })), 0, by
     decide +kernel⟩,
   ⟨st rig, 0, by decide +kernel⟩,
   ⟨st (rast .locked id (withCal (ent 1 3) (up0 fun p => { p with raster := { p.raster with st := .locked } }))), 0, ent 1 3,
     by decide +kernel⟩,
   ⟨st rig, 0, by decide +kernel⟩⟩

theorem meets_scheduledEntries :
    (∃ (s : State) (i : Fin 4096) (e : CalEntry) (o : Op), s.safe ∧ s.dev.sys.mode = .run ∧ findEntry' s.dev i.val e.action =
      some e ∧ e.trig = 0 ∧ e.handle = o.handle ∧ o.handle ≠ 0xFFFF ∧ findOp s.dev o.handle = some o ∧ isSchedule o.cmd =
      true ∧ o.final = none ∧ s.dev.dt.running = true ∧ e.took = false ∧ e.action = 0x09 ∧ e.ahead = true) ∧
    (∃ (s : State) (i : Fin 4096) (e : CalEntry) (o : Op), s.safe ∧ s.dev.sys.mode = .run ∧ findEntry' s.dev i.val e.action =
      some e ∧ e.trig = 0 ∧ e.handle = o.handle ∧ o.handle ≠ 0xFFFF ∧ findOp s.dev o.handle = some o ∧ isSchedule o.cmd =
      true ∧ o.final = none ∧ s.dev.dt.running = true ∧ e.took = false ∧ firesAlone s.dev e = true ∧ e.action = 0x09 ∧ e.rep
      = 0 ∧ (s.dev.fn e.fn).ev.st = .run ∧ ringFull (s.dev.fn e.fn).ev.cfg (s.dev.fn e.fn).ev.prod (s.dev.fn e.fn).ev.cons =
      false) ∧
    (∃ (s : State) (i : Fin 4096) (e : CalEntry) (o : Op), s.safe ∧ s.dev.sys.mode = .run ∧ findEntry' s.dev i.val e.action =
      some e ∧ e.trig = 0 ∧ e.handle = o.handle ∧ o.handle ≠ 0xFFFF ∧ findOp s.dev o.handle = some o ∧ isSchedule o.cmd =
      true ∧ o.final = none ∧ s.dev.dt.running = true ∧ e.took = false ∧ firesAlone s.dev e = true ∧ e.action = 0x09 ∧ e.rep
      ≠ 0 ∧ e.time.toNat < 2 ^ 62 ∧ s.dev.dt.dt.toNat < 2 ^ 62) ∧
    (∃ (s : State) (i : Fin 4096) (e : CalEntry) (o : Op), s.safe ∧ s.dev.sys.mode = .run ∧ findEntry' s.dev i.val e.action =
      some e ∧ e.trig = 0 ∧ e.handle = o.handle ∧ o.handle ≠ 0xFFFF ∧ findOp s.dev o.handle = some o ∧ isSchedule o.cmd =
      true ∧ o.final = none ∧ s.dev.dt.running = true ∧ e.took = false ∧ firesAlone s.dev e = true ∧ e.action = 0x06 ∧ e.rep
      = 0 ∧ bit e.arg 31 = false ∧ fld s.dev.hal.fsyncCfg 15 14 = 1 ∧ s.dev.raster.set = true) ∧
    (∃ (s : State) (i : Fin 4096) (e : CalEntry) (o : Op), s.safe ∧ s.dev.sys.mode = .run ∧ findEntry' s.dev i.val e.action =
      some e ∧ e.trig = 0 ∧ e.handle = o.handle ∧ o.handle ≠ 0xFFFF ∧ findOp s.dev o.handle = some o ∧ isSchedule o.cmd =
      true ∧ o.final = none ∧ s.dev.dt.running = true ∧ e.took = false ∧ firesAlone s.dev e = true ∧ e.action = 0x06 ∧ e.rep
      = 0 ∧ bit e.arg 31 = false ∧ fld s.dev.hal.fsyncCfg 15 14 ≠ 1) ∧
    (∃ (s : State) (i : Fin 4096) (e : CalEntry) (o : Op) (n : Fin 16), s.safe ∧ s.dev.sys.mode = .run ∧ findEntry' s.dev
      i.val e.action = some e ∧ e.trig = 0 ∧ e.handle = o.handle ∧ o.handle ≠ 0xFFFF ∧ findOp s.dev o.handle = some o ∧
      isSchedule o.cmd = true ∧ o.final = none ∧ s.dev.dt.running = true ∧ e.took = false ∧ firesAlone s.dev e = true ∧
      e.action = 0x05 ∧ e.rep = 0 ∧ e.ports = portMask n ∧ (s.dev.port n).link.st = .reef1 ∧ (s.dev.port n).link.mode = .gl12
      ∧ bit s.dev.pwr.padPort n.val = false ∧ (s.dev.port n).line.reefAt = none) ∧
    (∃ (s : State) (i : Fin 4096) (e : CalEntry) (o : Op) (n : Fin 16), s.safe ∧ s.dev.sys.mode = .run ∧ findEntry' s.dev
      i.val e.action = some e ∧ e.trig = 0 ∧ e.handle = o.handle ∧ o.handle ≠ 0xFFFF ∧ findOp s.dev o.handle = some o ∧
      isSchedule o.cmd = true ∧ o.final = none ∧ s.dev.dt.running = true ∧ e.took = false ∧ firesAlone s.dev e = true ∧
      e.action = 0x04 ∧ e.rep = 0 ∧ e.ports = portMask n ∧ (s.dev.port n).link.exitTick = some (if s.dev.dt.dt < e.time then
      e.time else s.dev.dt.dt)) ∧
    (∃ (s : State) (i : Fin 4096) (e : CalEntry) (o : Op) (n : Fin 16), s.safe ∧ s.dev.sys.mode = .run ∧ findEntry' s.dev
      i.val e.action = some e ∧ e.trig = 0 ∧ e.handle = o.handle ∧ o.handle ≠ 0xFFFF ∧ findOp s.dev o.handle = some o ∧
      isSchedule o.cmd = true ∧ o.final = none ∧ s.dev.dt.running = true ∧ e.took = false ∧ firesAlone s.dev e = true ∧
      e.action = 0x04 ∧ e.rep = 0 ∧ e.ports = portMask n ∧ (s.dev.port n).link.exitTick = none ∧ fld e.arg 1 0 = 1 ∧
      (s.dev.port n).link.st = .up ∧ (s.dev.port n).link.mode = .gl12 ∧ reefPlan (s.dev.port n) = none) ∧
    (∃ (s : State) (i : Fin 4096) (e : CalEntry) (o : Op) (n : Fin 16), s.safe ∧ s.dev.sys.mode = .run ∧ findEntry' s.dev
      i.val e.action = some e ∧ e.trig = 0 ∧ e.handle = o.handle ∧ o.handle ≠ 0xFFFF ∧ findOp s.dev o.handle = some o ∧
      isSchedule o.cmd = true ∧ o.final = none ∧ s.dev.dt.running = true ∧ e.took = false ∧ firesAlone s.dev e = true ∧
      e.action = 0x01 ∧ e.rep = 0 ∧ e.ports = portMask n ∧ (s.dev.port n).link.st = .up ∧ (s.dev.port n).rx.held = true) ∧
    (∃ (s : State) (i : Fin 4096) (e : CalEntry) (o : Op) (n : Fin 16), s.safe ∧ s.dev.sys.mode = .run ∧ findEntry' s.dev
      i.val e.action = some e ∧ e.trig = 0 ∧ e.handle = o.handle ∧ o.handle ≠ 0xFFFF ∧ findOp s.dev o.handle = some o ∧
      isSchedule o.cmd = true ∧ o.final = none ∧ s.dev.dt.running = true ∧ e.took = false ∧ firesAlone s.dev e = true ∧
      e.action = 0x01 ∧ e.rep = 0 ∧ e.ports = portMask n ∧ (s.dev.port n).link.st ≠ .up) :=
  ⟨⟨st (withCal { ent 9 0 with ahead := true }), 4095, { ent 9 0 with ahead := true }, opS, by decide +kernel⟩,
   ⟨st (withCal (ent 9 0)), 4095, ent 9 0, opS, by decide +kernel⟩,
   ⟨st (withCal { ent 9 0 with rep := 3 }), 4095, { ent 9 0 with rep := 3 }, opS, by decide +kernel⟩,
   ⟨st (rast .locked id (withCal (ent 6 0) (withOps [opS] { rig with hal := { rig.hal with fsyncCfg := 0x4000 } }))), 4095,
     ent 6 0, opS, by decide +kernel⟩,
   ⟨st (withCal (ent 6 0)), 4095, ent 6 0, opS, by decide +kernel⟩,
   ⟨st (withCal (ent 5 0) (withOps [opS] (atP (linkP fun l => { l with st := .reef1, mode := .gl12 })))), 4095, ent 5 0, opS,
     0, by decide +kernel⟩,
   ⟨st (withCal (ent 4 0) (withOps [opS] (atP (linkP fun l => { l with exitTick := some 2000 })))), 4095, ent 4 0, opS, 0, by
     decide +kernel⟩,
   ⟨st (withCal { ent 4 0 with arg := 1 } (withOps [opS] (atP (linkP fun l => { l with st := .up, mode := .gl12 })))), 4095,
     { ent 4 0 with arg := 1 }, opS, 0, by decide +kernel⟩,
   ⟨st (withCal (ent 1 0) (withOps [opS] (up0 fun p => { p with rx := { p.rx with held := true } }))), 4095, ent 1 0, opS, 0,
     by decide +kernel⟩,
   ⟨st (withCal (ent 1 0)), 4095, ent 1 0, opS, 0, by decide +kernel⟩⟩

theorem meets_deviceEntries :
    (∃ (s : State) (i : Fin 4096) (e : CalEntry) (n : Fin 16), s.safe ∧ s.dev.sys.mode = .run ∧ findEntry' s.dev i.val
      e.action = some e ∧ e.rep = 0 ∧ e.handle = 0xFFFF ∧ e.ports = portMask n ∧ e.done = 0 ∧ firesAlone s.dev e = true ∧
      e.action = 0x02 ∧ e.trig = 3 ∧ (s.dev.port n).pc.up = true ∧ (s.dev.port n).diag.calTargets = [] ∧ fld e.arg 23 16 < 50
      ∧ (s.dev.port n).diag.trims.length = 52 ∧ trimOf (s.dev.port n).diag.trims (fld e.arg 23 16) = BitVec.ofNat 8 (fld
      e.arg 7 0) + 1 ∧ (s.dev.port n).link.st ≠ .up) ∧
    (∃ (s : State) (i : Fin 4096) (e : CalEntry) (n : Fin 16), s.safe ∧ s.dev.sys.mode = .run ∧ findEntry' s.dev i.val
      e.action = some e ∧ e.rep = 0 ∧ e.handle = 0xFFFF ∧ e.ports = portMask n ∧ e.done = 0 ∧ firesAlone s.dev e = true ∧
      e.action = 0x02 ∧ e.trig = 3 ∧ (s.dev.port n).pc.up = true ∧ (s.dev.port n).diag.calTargets = [] ∧ fld e.arg 23 16 < 50
      ∧ (s.dev.port n).diag.trims.length = 52 ∧ trimOf (s.dev.port n).diag.trims (fld e.arg 23 16) = BitVec.ofNat 8 (fld
      e.arg 7 0) + 1 ∧ (s.dev.port n).link.st = .up ∧ (s.dev.port n).raster.st = .none ∧ s.dev.dt.running = true) ∧
    (∃ (s : State) (i : Fin 4096) (e : CalEntry) (n : Fin 16), s.safe ∧ s.dev.sys.mode = .run ∧ findEntry' s.dev i.val
      e.action = some e ∧ e.rep = 0 ∧ e.handle = 0xFFFF ∧ e.ports = portMask n ∧ e.done = 0 ∧ firesAlone s.dev e = true ∧
      e.action = 0x03 ∧ e.trig = 3 ∧ (s.dev.port n).pc.up = true ∧ (s.dev.port n).link.st = .isolated ∧ (s.dev.port
      n).bist.passRun = true ∧ (s.dev.port n).bist.op = none ∧ (s.dev.port n).bist.slice = 4) ∧
    (∃ (s : State) (i : Fin 4096) (e : CalEntry) (n : Fin 16) (r : BitVec 7), s.safe ∧ s.dev.sys.mode = .run ∧ findEntry'
      s.dev i.val e.action = some e ∧ e.rep = 0 ∧ e.handle = 0xFFFF ∧ e.ports = portMask n ∧ e.done = 0 ∧ firesAlone s.dev e
      = true ∧ e.action = 0x03 ∧ e.trig = 3 ∧ (s.dev.port n).pc.up = true ∧ (s.dev.port n).link.st = .isolated ∧ e.arg =
      0x0001_0000 ∧ r.toNat < 32 ∧ (s.dev.memSt (portMem n 0)).subst = [] ∧ (s.dev.memSt (portMem n 0)).repaired = [] ∧
      s.dev.flt.port[n.val].raised = 0 ∧ isLive s.dev (srcPort n 15) = false) ∧
    (∃ (s : State) (i : Fin 4096) (e : CalEntry) (n : Fin 16) (m : LineMode), s.safe ∧ s.dev.sys.mode = .run ∧ findEntry'
      s.dev i.val e.action = some e ∧ e.rep = 0 ∧ e.handle = 0xFFFF ∧ e.ports = portMask n ∧ e.done = 0 ∧ firesAlone s.dev e
      = true ∧ e.action = 0x07 ∧ e.trig = 0 ∧ (s.dev.port n).link.st = .up ∧ (s.dev.port n).raster.st = .none ∧ e.arg = at_ 0
      m.code ∧ (s.dev.port n).line.dsEnd = none ∧ m.gletik = true) ∧
    (∃ (s : State) (i : Fin 4096) (e : CalEntry) (n : Fin 16) (m : LineMode), s.safe ∧ s.dev.sys.mode = .run ∧ findEntry'
      s.dev i.val e.action = some e ∧ e.rep = 0 ∧ e.handle = 0xFFFF ∧ e.ports = portMask n ∧ e.done = 0 ∧ firesAlone s.dev e
      = true ∧ e.action = 0x07 ∧ e.trig = 0 ∧ (s.dev.port n).link.st = .up ∧ (s.dev.port n).raster.st = .none ∧ e.arg = at_ 0
      m.code ∧ (s.dev.port n).line.dsEnd = none ∧ m = .t10g) ∧
    (∃ (s : State) (i : Fin 4096) (e : CalEntry) (n : Fin 16), s.safe ∧ s.dev.sys.mode = .run ∧ findEntry' s.dev i.val
      e.action = some e ∧ e.rep = 0 ∧ e.handle = 0xFFFF ∧ e.ports = portMask n ∧ e.done = 0 ∧ firesAlone s.dev e = true ∧
      e.action = 0x07 ∧ e.trig = 0 ∧ (s.dev.port n).link.st = .reef1) ∧
    (∃ (s : State) (i : Fin 4096) (e : CalEntry) (o : Op) (n : Fin 16), s.safe ∧ s.dev.sys.mode = .run ∧ findEntry' s.dev
      i.val 0x08 = some e ∧ e.trig = 0 ∧ e.rep = 0 ∧ e.capId = o.handle ∧ findOp s.dev o.handle = some o ∧ firesAlone s.dev e
      = true ∧ captureWaits s.dev o.handle = some n ∧ (s.dev.port n).link.mode.std = false ∧ e.waiting = false ∧ e.handle ≠
      o.handle ∧ (s.dev.port n).pc.up = true) ∧
    (∃ (s : State) (i : Fin 4096) (e : CalEntry) (o : Op) (n : Fin 16), s.safe ∧ s.dev.sys.mode = .run ∧ findEntry' s.dev
      i.val 0x08 = some e ∧ e.trig = 0 ∧ e.rep = 0 ∧ e.capId = o.handle ∧ findOp s.dev o.handle = some o ∧ firesAlone s.dev e
      = true ∧ captureWaits s.dev o.handle = some n ∧ (s.dev.port n).link.mode.std = false ∧ e.waiting = false ∧ e.handle ≠
      o.handle ∧ (s.dev.port n).pc.up = false) ∧
    (∃ (s : State) (i : Fin 4096) (e : CalEntry) (n : Fin 16), s.safe ∧ s.dev.sys.mode = .run ∧ findEntry' s.dev i.val 0x06 =
      some e ∧ e.trig = 0 ∧ bit e.arg 31 = true ∧ e.ports = portMask n ∧ e.sent = 0 ∧ (s.dev.port n).link.st = .up ∧
      followRole s.dev = false ∧ s.dev.dt.dt < e.time ∧ BitVec.ofNat 64 (trgLead s.dev) < e.time) ∧
    (∃ (s : State) (i : Fin 4096) (e : CalEntry) (n : Fin 16), s.safe ∧ s.dev.sys.mode = .run ∧ findEntry' s.dev i.val 0x06 =
      some e ∧ e.trig = 0 ∧ bit e.arg 31 = true ∧ e.ports = portMask n ∧ e.sent ≠ 0) ∧
    (∃ (s : State) (i : Fin 4096), s.safe ∧ s.dev.sys.mode = .run ∧ (s.dev.hal.cal.any fun x => x.idx == i.val) = false) :=
  ⟨⟨st (withCal { ent 2 3 0xFFFF with arg := 0x0031_00FF } (atP (diagP fun g => { g with trims := List.replicate 52 0 }))),
  4095, { ent 2 3 0xFFFF with arg := 0x0031_00FF }, 0, by decide +kernel⟩,
   ⟨st (withCal { ent 2 3 0xFFFF with arg := 0x0031_00FF } up0), 4095, { ent 2 3 0xFFFF with arg := 0x0031_00FF }, 0, by
     decide +kernel⟩,
   ⟨st (withCal (ent 3 3 0xFFFF) (linked .isolated (atP (bistP fun b => { b with passRun := true, slice := 4 })))), 4095, ent
     3 3 0xFFFF, 0, by decide +kernel⟩,
   ⟨st (withCal { ent 3 3 0xFFFF with arg := 0x0001_0000 } (linked .isolated)), 4095,
     { ent 3 3 0xFFFF with arg := 0x0001_0000 }, 0, 31, by decide +kernel⟩,
   ⟨st (withCal { ent 7 0 0xFFFF with arg := at_ 0 LineMode.gl12.code } up0), 4095,
     { ent 7 0 0xFFFF with arg := at_ 0 LineMode.gl12.code }, 0, .gl12, by decide +kernel⟩,
   ⟨st (withCal { ent 7 0 0xFFFF with arg := at_ 0 LineMode.t10g.code } up0), 4095,
     { ent 7 0 0xFFFF with arg := at_ 0 LineMode.t10g.code }, 0, .t10g, by decide +kernel⟩,
   ⟨st (withCal (ent 7 0 0xFFFF) (linked .reef1)), 4095, ent 7 0 0xFFFF, 0, by decide +kernel⟩,
   ⟨st (withCal { ent 8 0 0xFFFF with arg := 5 } (withOps [op5 (.capture 0 0 1 8192 0)] up0)), 4095,
     { ent 8 0 0xFFFF with arg := 5 }, op5 (.capture 0 0 1 8192 0), 0, by decide +kernel⟩,
   ⟨st (withCal { ent 8 0 0xFFFF with arg := 5 } (withOps [op5 (.capture 0 0 1 8192 0)] (up0 fun p =>
     { p with pc := { p.pc with up := false } }))), 4095, { ent 8 0 0xFFFF with arg := 5 }, op5 (.capture 0 0 1 8192 0), 0,
     by decide +kernel⟩,
   ⟨st (withCal { ent 6 0 with arg := 0x8000_0000, time := 30000 } up0), 4095,
     { ent 6 0 with arg := 0x8000_0000, time := 30000 }, 0, by decide +kernel⟩,
   ⟨st (withCal { ent 6 0 with arg := 0x8000_0000, sent := 1 } up0), 4095, { ent 6 0 with arg := 0x8000_0000, sent := 1 }, 0,
     by decide +kernel⟩,
   ⟨st rig, 0, by decide +kernel⟩⟩

theorem meets_calibrationRuns :
    (∃ (s : State), s.safe ∧ powered s.dev = true ∧ bit s.dev.age.calCfg 1 = false) ∧
    (∃ (s : State), s.safe ∧ powered s.dev = true ∧ bit s.dev.age.calCfg 1 = true ∧ 2 ≤ fld s.dev.age.calCfg 7 3 ∧ fld
      s.dev.age.calCfg 7 3 ≤ 30) ∧
    (∃ (s : State) (n : Fin 16) (codes : List W8), s.safe ∧ powered s.dev = true ∧ codes.length = 50 ∧ (s.dev.port
      n).diag.calRunning = false) ∧
    (∃ (s : State) (n : Fin 16) (o : Op) (codes : List W8) (vref rext : Int), s.safe ∧ powered s.dev = true ∧ codes.length =
      50 ∧ (s.dev.port n).diag.calRunning = true ∧ nextStep (s.dev.port n).diag = none ∧ s.dev.host.ops = [o] ∧ o.cmd =
      .calRun (portMask n) ∧ o.final = none ∧ o.started = true ∧ o.fails = 0 ∧ o.fails1 = 0 ∧ (30000 < vref.natAbs ∨ 150000 <
      rext.natAbs) ∧ (s.dev.port n).diag.calCount ≠ 0xFFFFFFFF) ∧
    (∃ (s : State) (n : Fin 16) (o : Op) (codes : List W8) (vref rext : Int), s.safe ∧ powered s.dev = true ∧ codes.length =
      50 ∧ (s.dev.port n).diag.calRunning = true ∧ nextStep (s.dev.port n).diag = none ∧ s.dev.host.ops = [o] ∧ o.cmd =
      .calRun (portMask n) ∧ o.final = none ∧ o.started = true ∧ o.fails = 0 ∧ o.fails1 = 0 ∧ vref.natAbs ≤ 30000 ∧
      rext.natAbs ≤ 150000 ∧ (s.dev.port n).diag.trims.take 50 = calTarget (s.dev.port n).diag codes ∧ (s.dev.port
      n).diag.trims.length = 52 ∧ (s.dev.port n).diag.calCount ≠ 0xFFFFFFFF) ∧
    (∃ (s : State) (n : Fin 16) (c : W8) (o : Op) (codes : List W8) (vref rext : Int), s.safe ∧ powered s.dev = true ∧
      codes.length = 50 ∧ (s.dev.port n).diag.calRunning = true ∧ nextStep (s.dev.port n).diag = none ∧ s.dev.host.ops = [o]
      ∧ o.cmd = .calRun (portMask n) ∧ o.final = none ∧ o.started = true ∧ o.fails = 0 ∧ o.fails1 = 0 ∧ vref.natAbs ≤ 30000 ∧
      rext.natAbs ≤ 150000 ∧ (s.dev.port n).diag.trims.length = 52 ∧ (s.dev.port n).diag.trims.take 50 = c :: (calTarget
      (s.dev.port n).diag codes).tail ∧ codes.head? = some (c + 3) ∧ c.toNat < 250) :=
  ⟨⟨st { rig with age := { rig.age with calCfg := 0 } }, by decide +kernel⟩,
   ⟨st { rig with age := { rig.age with calCfg := 0x12 } }, by decide +kernel⟩,
   ⟨st rig, 0, List.replicate 50 0, by decide +kernel⟩,
   ⟨st (withOps [op5 (.calRun 1)] (atP (diagP fun g => { g with calRunning := true }))), 0, op5 (.calRun 1), List.replicate
     50 0, 30001, 0, by decide +kernel⟩,
   ⟨st (withOps [op5 (.calRun 1)] (atP (diagP fun g => { g with calRunning := true }))), 0, op5 (.calRun 1), List.replicate
     50 0, 30000, 150000, by decide +kernel⟩,
   ⟨st (withOps [op5 (.calRun 1)] (atP (diagP fun g => { g with calRunning := true, trims := 249 :: List.replicate 51 0 }))),
     0, 249, op5 (.calRun 1), 252 :: List.replicate 49 0, 0, 0, by decide +kernel⟩⟩

theorem meets_cableDiagnostics :
    (∃ (s : State) (n : Fin 16), s.safe ∧ powered s.dev = true ∧ (s.dev.port n).pc.up = true ∧ (s.dev.port n).link.st ≠ .up) ∧
    (∃ (s : State) (n : Fin 16) (was : List W16) (b : Nat), s.safe ∧ powered s.dev = true ∧ (s.dev.port n).pc.up = true ∧
      (s.dev.port n).diag.baseline = some was ∧ (s.dev.port n).link.st = .up ∧ fld (s.dev.port n).cfg.diagCfg 7 4 = 3 ∧
      peakBins (s.dev.port n).diag.reflect was = [b] ∧ (s.dev.port n).diag.peaksChg ≠ 255) ∧
    (∃ (s : State) (n : Fin 16) (was : List W16), s.safe ∧ powered s.dev = true ∧ (s.dev.port n).pc.up = true ∧ (s.dev.port
      n).diag.baseline = some was ∧ (s.dev.port n).link.st = .up ∧ fld (s.dev.port n).cfg.diagCfg 7 4 = 3 ∧ peakBins
      (s.dev.port n).diag.reflect was = []) ∧
    (∃ (s : State) (n : Fin 16), s.safe ∧ powered s.dev = true ∧ (s.dev.port n).pc.up = true ∧ (s.dev.port n).diag.baseline =
      none) ∧
    (∃ (s : State) (n : Fin 16) (r : Int) (l : List Int), s.safe ∧ powered s.dev = true ∧ (s.dev.port n).pc.up = true ∧
      (s.dev.port n).link.st = .up ∧ bit (s.dev.port n).cfg.diagCfg 31 = false ∧ bit (s.dev.port n).cfg.diagCfg 30 = true ∧
      fld (s.dev.port n).cfg.diagCfg 19 15 = 10 ∧ (s.dev.port n).diag.shieldWin.take 599 = l ∧ l.length = 599 ∧ (s.dev.port
      n).diag.shieldRef = some r ∧ (s.dev.port n).diag.shieldFirst = none) ∧
    (∃ (s : State) (n : Fin 16) (l : List Int), s.safe ∧ powered s.dev = true ∧ (s.dev.port n).pc.up = true ∧ (s.dev.port
      n).link.st = .up ∧ bit (s.dev.port n).cfg.diagCfg 31 = false ∧ bit (s.dev.port n).cfg.diagCfg 30 = true ∧ fld
      (s.dev.port n).cfg.diagCfg 19 15 = 10 ∧ (s.dev.port n).diag.shieldWin.take 599 = l ∧ l.length = 599 ∧ (s.dev.port
      n).diag.shieldFirst = some l) ∧
    (∃ (s : State) (n : Fin 16), s.safe ∧ powered s.dev = true ∧ (s.dev.port n).pc.up = true ∧ bit (s.dev.port n).cfg.diagCfg
      31 = true) ∧
    (∃ (s : State) (n : Fin 16) (o : Op) (energy trained : Nat), s.safe ∧ powered s.dev = true ∧ (s.dev.port n).pc.up = true
      ∧ s.dev.host.ops = [o] ∧ o.cmd = .diagTdr (BitVec.ofNat 8 n.val) ∧ o.final = none ∧ o.started = true ∧ (s.dev.port
      n).link.st = .isolated ∧ trained < energy * 100) ∧
    (∃ (s : State) (n : Fin 16) (o : Op) (energy trained : Nat), s.safe ∧ powered s.dev = true ∧ (s.dev.port n).pc.up = true
      ∧ s.dev.host.ops = [o] ∧ o.cmd = .diagTdr (BitVec.ofNat 8 n.val) ∧ o.final = none ∧ o.started = true ∧ (s.dev.port
      n).link.st = .isolated ∧ energy * 100 ≤ trained) ∧
    (∃ (s : State) (n : Fin 16), s.safe ∧ powered s.dev = true ∧ (s.dev.port n).pc.up = true ∧ s.dev.host.ops = []) :=
  ⟨⟨st rig, 0, by decide +kernel⟩,
   ⟨st (up0 (diagP fun g => { g with reflect := dip, baseline := some flat, peaksChg := 254 })), 0, flat, 100, by
     decide +kernel⟩,
   ⟨st (up0 (diagP fun g => { g with reflect := flat, baseline := some flat })), 0, flat, by decide +kernel⟩,
   ⟨st rig, 0, by decide +kernel⟩,
   ⟨st (up0 fun p => cfgP (fun c => { c with diagCfg := 0x4005_0000 }) (diagP (fun g =>
     { g with shieldRef := some 0, shieldWin := List.replicate 599 0 }) p)), 0, 0, List.replicate 599 0, by decide +kernel⟩,
   ⟨st (up0 fun p => cfgP (fun c => { c with diagCfg := 0x4005_0000 }) (diagP (fun g =>
     { g with shieldFirst := some (List.replicate 599 0), shieldWin := List.replicate 599 0 }) p)), 0, List.replicate 599 0,
     by decide +kernel⟩,
   ⟨st (atP (cfgP fun c => { c with diagCfg := 0x8000_0000 })), 0, by decide +kernel⟩,
   ⟨st (withOps [op5 (.diagTdr 0)] (linked .isolated)), 0, op5 (.diagTdr 0), 1, 0, by decide +kernel⟩,
   ⟨st (withOps [op5 (.diagTdr 0)] (linked .isolated)), 0, op5 (.diagTdr 0), 0, 0, by decide +kernel⟩,
   ⟨st rig, 0, by decide +kernel⟩⟩

theorem meets_ageingAndPlanner :
    (∃ (s : State) (cycles : List (Nat × Nat)), s.safe ∧ powered s.dev = true ∧ cycles.length = 24 ∧ s.dev.avs.freq ≠ 0) ∧
    (∃ (s : State) (cycles : List (Nat × Nat)), s.safe ∧ powered s.dev = true ∧ cycles.length = 24 ∧ s.dev.avs.freq = 0 ∧
      s.dev.bist.privRun = 0 ∧ bit s.dev.age.cfg 0 = false) ∧
    (∃ (s : State) (cycles : List (Nat × Nat)), s.safe ∧ powered s.dev = true ∧ cycles.length = 24 ∧ s.dev.avs.freq = 0 ∧
      s.dev.bist.privRun = 0 ∧ bit s.dev.age.cfg 0 = true ∧ fld s.dev.age.cfg 15 8 = 8) ∧
    (∃ (s : State) (n : Fin 16), s.safe ∧ powered s.dev = true ∧ bit (s.dev.port n).cfg.planCfg 31 = false) ∧
    (∃ (s : State) (n : Fin 16) (b : PlanBurst), s.safe ∧ powered s.dev = true ∧ bit (s.dev.port n).cfg.planCfg 31 = true ∧
      bit (s.dev.port n).cfg.planCfg 30 = true ∧ (s.dev.port n).pc.up = true ∧ (s.dev.port n).link.mode = .gl25 ∧ (s.dev.port
      n).diag.plan.bursts = [b] ∧ (s.dev.dt.dt - b.time).toNat ≤ hours 168 ∧ cfgW (s.dev.port n).cfg < planWindow 4250 b.len
      ∧ ((s.dev.port n).diag.plan.proposedAt.all fun x => decide (hours 24 ≤ (s.dev.dt.dt - x).toNat)) = true ∧ (s.dev.fn
      .pf0).ev.st = .run ∧ (s.dev.fn .pf0).ev.lost = 0 ∧ ringFull (s.dev.fn .pf0).ev.cfg (s.dev.fn .pf0).ev.prod (s.dev.fn
      .pf0).ev.cons = false ∧ s.dev.sys.mgrUp = true) ∧
    (∃ (s : State) (n : Fin 16) (at' : W64), s.safe ∧ powered s.dev = true ∧ (s.dev.port n).diag.plan.proposedAt = some at' ∧
      (s.dev.dt.dt - at').toNat < hours 24) :=
  ⟨⟨st (avsd fun a => { a with freq := 2 }), List.replicate 24 (0, 0), by decide +kernel⟩,
   ⟨st { rig with age := { rig.age with cfg := 0 } }, List.replicate 24 (0, 0), by decide +kernel⟩,
   ⟨st rig, List.replicate 24 (0, 0), by decide +kernel⟩,
   ⟨st (atP (cfgP fun c => { c with planCfg := 0 })), 0, by decide +kernel⟩,
   ⟨st (up0 fun p => cfgP (fun c => { c with planCfg := 0xC000_0000 }) (diagP (fun g =>
     { g with plan := { g.plan with bursts := [⟨1000, 20000, none⟩] } }) p)), 0, ⟨1000, 20000, none⟩, by decide +kernel⟩,
   ⟨st (up0 (diagP fun g => { g with plan := { g.plan with proposedAt := some 999 } })), 0, 999, by decide +kernel⟩⟩

theorem meets_protectedMemories :
    (∃ (s : State) (x : Fin 132) (a ticks c : Nat), s.safe ∧ powered s.dev = true ∧ a < memBytes x ∧ (s.dev.memSt x).subst =
      [(c, ticks)]) ∧
    (∃ (s : State) (x : Fin 132) (a : Nat), s.safe ∧ powered s.dev = true ∧ a < memBytes x ∧ (s.dev.memSt x).corr ≠
      0xFFFFFFFF) ∧
    (∃ (s : State) (x : Fin 132) (a c : Nat), s.safe ∧ powered s.dev = true ∧ a < memBytes x ∧ bit s.dev.bist.memCfg 1 = true
      ∧ (s.dev.memSt x).track = [(memUnit x a, c, false)] ∧ 4 ≤ c) ∧
    (∃ (s : State) (x : Fin 132) (a c : Nat), s.safe ∧ powered s.dev = true ∧ a < memBytes x ∧ bit s.dev.bist.memCfg 1 = true
      ∧ (s.dev.memSt x).track = [(memUnit x a, c, false)] ∧ c < 4) ∧
    (∃ (s : State) (x : Fin 132) (a c : Nat), s.safe ∧ powered s.dev = true ∧ a < memBytes x ∧ bit s.dev.bist.memCfg 1 = true
      ∧ (s.dev.memSt x).track = [(memUnit x a, c, true)] ∧ (s.dev.memSt x).subst = [] ∧ (s.dev.memSt x).repaired = [] ∧
      (s.dev.memSt x).hard ≠ 255) ∧
    (∃ (s : State) (x : Fin 132) (a c : Nat), s.safe ∧ powered s.dev = true ∧ a < memBytes x ∧ bit s.dev.bist.memCfg 1 = true
      ∧ (s.dev.memSt x).track = [(memUnit x a, c, true)] ∧ spareFree (s.dev.memSt x) (a / 65536) = false ∧ (s.dev.memSt
      x).subst = [] ∧ isLive s.dev (lossSrc x) = false) ∧
    (∃ (s : State) (x : Fin 132) (a c : Nat), s.safe ∧ powered s.dev = true ∧ a < memBytes x ∧ bit s.dev.bist.memCfg 0 = true
      ∧ (s.dev.memSt x).track = [(memUnit x a, c, true)]) ∧
    (∃ (s : State) (x : Fin 132) (a c : Nat), s.safe ∧ powered s.dev = true ∧ a < memBytes x ∧ bit s.dev.bist.memCfg 0 = true
      ∧ (s.dev.memSt x).track = [(memUnit x a, c, false)]) ∧
    (∃ (s : State) (x : Fin 132) (a : Nat), s.safe ∧ powered s.dev = true ∧ a < memBytes x ∧ bit s.dev.bist.memCfg 0 = true ∧
      (s.dev.memSt x).track = [] ∧ (s.dev.memSt x).subst = [] ∧ bit s.dev.bist.memCfg 1 = true) ∧
    (∃ (s : State) (x : Fin 132) (a ticks : Nat), s.safe ∧ powered s.dev = true ∧ a < memBytes x ∧ bit s.dev.bist.memCfg 0 =
      true ∧ fld s.dev.bist.memCfg 31 16 = 10 ∧ ticks < 2 ^ 32) ∧
    (∃ (s : State) (x : Fin 132) (a ticks : Nat) (f : ScrubFinding), s.safe ∧ powered s.dev = true ∧ a < memBytes x ∧ bit
      s.dev.bist.memCfg 0 = false ∧ (f = .clean ∨ f = .corrected ∨ f = .lapEnd ticks)) ∧
    (∃ (s : State) (n : Fin 16) (a : Nat), s.safe ∧ s.dev.sys.mode = .run ∧ a < 65536 ∧ s.dev.flt.port[n.val].raised = 0 ∧
      isRaised s.dev 0x043 = false ∧ (∀ x, (s.dev.memSt x).track = []) ∧ (s.dev.memSt (portMem n 3)).poisoned = [] ∧
      (s.dev.memSt (portMem n 3)).uncorr ≠ 255) ∧
    (∃ (s : State) (n : Fin 16) (a : Nat), s.safe ∧ s.dev.sys.mode = .run ∧ a < 65536 ∧ s.dev.flt.port[n.val].raised = 0 ∧
      isRaised s.dev 0x043 = false ∧ (∀ x, (s.dev.memSt x).track = []) ∧ (s.dev.memSt (portMem n 3)).poisoned = [] ∧ isLive
      s.dev (srcPort n 13) = false) ∧
    (∃ (s : State) (n : Fin 16) (a : Nat), s.safe ∧ s.dev.sys.mode = .run ∧ a < 65536 ∧ s.dev.flt.port[n.val].raised = 0 ∧
      isRaised s.dev 0x043 = false ∧ (∀ x, (s.dev.memSt x).track = []) ∧ memUnit (portMem n 3) a ∈ (s.dev.memSt (portMem n
      3)).poisoned) ∧
    (∃ (s : State) (n : Fin 16) (a : Nat), s.safe ∧ s.dev.sys.mode = .run ∧ a < 65536 ∧ s.dev.flt.port[n.val].raised = 0 ∧
      isRaised s.dev 0x043 = false ∧ (∀ x, (s.dev.memSt x).track = []) ∧ s.dev.sys.restarts ≠ 0xFFFFFFFF) ∧
    (∃ (s : State) (n : Fin 16) (a : Nat) (seq : Seq) (slot : BitVec 4), s.safe ∧ s.dev.sys.mode = .run ∧ a < 65536 ∧
      s.dev.flt.port[n.val].raised = 0 ∧ isRaised s.dev 0x043 = false ∧ (∀ x, (s.dev.memSt x).track = []) ∧ (findEntry
      (s.dev.port n).rtx seq slot).isSome = true) ∧
    (∃ (s : State) (n : Fin 16) (a : Nat), s.safe ∧ s.dev.sys.mode = .run ∧ a < 65536 ∧ s.dev.flt.port[n.val].raised = 0 ∧
      isRaised s.dev 0x043 = false ∧ (∀ x, (s.dev.memSt x).track = []) ∧ (s.dev.port n).up.blocks ≠ []) ∧
    (∃ (s : State) (n : Fin 16) (a : Nat), s.safe ∧ s.dev.sys.mode = .run ∧ a < 65536 ∧ s.dev.flt.port[n.val].raised = 0 ∧
      isRaised s.dev 0x043 = false ∧ (∀ x, (s.dev.memSt x).track = []) ∧ (s.dev.port n).up.drop ≠ 0x7FFF) ∧
    (∃ (s : State) (n : Fin 16) (a : Nat), s.safe ∧ s.dev.sys.mode = .run ∧ a < 65536 ∧ s.dev.flt.port[n.val].raised = 0 ∧
      isRaised s.dev 0x043 = false ∧ (∀ x, (s.dev.memSt x).track = []) ∧ (s.dev.memSt (portMem n 2)).poisoned = [] ∧
      (s.dev.port n).link.st = .up ∧ bit s.dev.pwr.padPort n.val = false) ∧
    (∃ (s : State) (n : Fin 16) (a : Nat) (o : Op), s.safe ∧ s.dev.sys.mode = .run ∧ a < 65536 ∧ s.dev.flt.port[n.val].raised
      = 0 ∧ isRaised s.dev 0x043 = false ∧ (∀ x, (s.dev.memSt x).track = []) ∧ s.dev.host.ops = [o] ∧ (s.dev.memSt
      128).poisoned = [] ∧ isLive s.dev 0x043 = false) ∧
    (∃ (s : State) (n : Fin 16) (a : Nat), s.safe ∧ s.dev.sys.mode = .run ∧ a < 65536 ∧ s.dev.flt.port[n.val].raised = 0 ∧
      isRaised s.dev 0x043 = false ∧ (∀ x, (s.dev.memSt x).track = []) ∧ bit s.dev.bist.memCfg 0 = true ∧ (s.dev.memSt
      (portMem n 3)).poisoned = [] ∧ (s.dev.memSt (portMem n 3)).subst = [] ∧ s.dev.bist.reload = []) ∧
    (∃ (s : State) (n : Fin 16) (a : Nat), s.safe ∧ s.dev.sys.mode = .run ∧ a < 65536 ∧ s.dev.flt.port[n.val].raised = 0 ∧
      isRaised s.dev 0x043 = false ∧ (∀ x, (s.dev.memSt x).track = []) ∧ s.dev.bist.reload = [((portMem n 3).val, a)]) :=
  ⟨⟨st (rig.modMem 0 fun m => { m with subst := [(1, 0)] }), 0, 0, 0, 1, by decide +kernel⟩,
   ⟨st rig, 0, memBytes 0 - 1, by decide +kernel⟩,
   ⟨st (tracked 4 false), 0, 0, 4, by decide +kernel⟩,
   ⟨st (tracked 3 false), 0, 0, 3, by decide +kernel⟩,
   ⟨st (tracked 5 true), 0, 0, 5, by decide +kernel⟩,
   ⟨st (tracked 5 true [(0, 1), (0, 2), (0, 3), (0, 4)]), 0, 0, 5, by decide +kernel⟩,
   ⟨st (tracked 5 true), 0, 0, 5, by decide +kernel⟩,
   ⟨st (tracked 5 false), 0, 0, 5, by decide +kernel⟩,
   ⟨st rig, 0, 0, by decide +kernel⟩,
   ⟨st rig, 131, 0, 2 ^ 32 - 1, by decide +kernel⟩,
   ⟨st { rig with bist := { rig.bist with memCfg := 0 } }, 0, 0, 0, .clean, by decide +kernel⟩,
   ⟨st rig, 0, 65535,
     by and_intros <;> first | exact noTrack rfl | decide +kernel⟩,
   ⟨st rig, 0, 65535,
     by and_intros <;> first | exact noTrack rfl | decide +kernel⟩,
   ⟨st (rig.modMem (portMem 0 3) fun m => { m with poisoned := [65504] }), 0, 65535, by decide +kernel⟩,
   ⟨st rig, 0, 0,
     by and_intros <;> first | exact noTrack rfl | decide +kernel⟩,
   ⟨st (up0 (rtxP fun r => { r with entries := [⟨3, 2, some 9, none, none, false⟩] })), 0, 0, 3, 2,
     by and_intros <;> first | exact noTrack rfl | decide +kernel⟩,
   ⟨st (up0 fun p => { p with up := { p.up with blocks := [0] } }), 0, 0,
     by and_intros <;> first | exact noTrack rfl | decide +kernel⟩,
   ⟨st (up0 fun p => { p with up := { p.up with drop := 0x7FFE } }), 0, 0,
     by and_intros <;> first | exact noTrack rfl | decide +kernel⟩,
   ⟨st up0, 0, 0,
     by and_intros <;> first | exact noTrack rfl | decide +kernel⟩,
   ⟨st (withOps [opEnd]), 0, 0, opEnd,
     by and_intros <;> first | exact noTrack rfl | decide +kernel⟩,
   ⟨st rig, 0, 0,
     by and_intros <;> first | exact noTrack rfl | decide +kernel⟩,
   ⟨st { rig with bist := { rig.bist with reload := [((portMem 0 3).val, 5)] } }, 0, 5,
     by and_intros <;> first | exact noTrack rfl | decide +kernel⟩⟩

theorem meets_selfTests :
    (∃ (s : State) (n : Fin 16), s.safe ∧ s.dev.sys.mode = .run ∧ bit s.dev.bist.cfg 2 = true ∧ (s.dev.port n).bist.passRun =
      false ∧ (s.dev.port n).bist.op = none ∧ (s.dev.port n).link.st = .up) ∧
    (∃ (s : State), s.safe ∧ powered s.dev = true ∧ bit s.dev.bist.cfg 2 = false) ∧
    (∃ (s : State) (n : Fin 16) (failing : W32) (o : Op), s.safe ∧ powered s.dev = true ∧ (s.dev.port n).bist.logicRun = true
      ∧ (s.dev.port n).bist.op = some o.handle ∧ s.dev.host.ops = [o] ∧ o.final = none ∧ o.left = 1 ∧ o.fails = 0 ∧ o.fails1
      = 0 ∧ (s.dev.port n).link.st = .isolated ∧ failing ≠ 0 ∧ isRaised s.dev (srcPort n 15) = false ∧ isLive s.dev (srcPort
      n 15) = false) ∧
    (∃ (s : State) (n : Fin 16), s.safe ∧ powered s.dev = true ∧ (s.dev.port n).bist.logicRun = false) ∧
    (∃ (s : State) (i : Fin 4) (o : Op), s.safe ∧ s.dev.sys.mode = .maintain ∧ s.dev.bist.privOp = some o.handle ∧ bit
      s.dev.bist.privLeft i.val = true ∧ (∀ j : Fin 4, j < i → bit s.dev.bist.privLeft j.val = false) ∧ (∀ j : Fin 4, bit
      s.dev.bist.privRun j.val = false) ∧ s.dev.dt.running = true) ∧
    (∃ (s : State) (i : Fin 4) (o : Op), s.safe ∧ s.dev.sys.mode = .maintain ∧ s.dev.bist.privOp = some o.handle ∧ bit
      s.dev.bist.privLeft i.val = true ∧ (∀ j : Fin 4, j < i → bit s.dev.bist.privLeft j.val = false) ∧ i = 1 ∧ bit
      s.dev.bist.privRun 0 = true ∧ s.dev.bist.privLeft = 2) ∧
    (∃ (s : State) (i : Fin 4), s.safe ∧ s.dev.sys.mode = .maintain ∧ bit s.dev.bist.privRun i.val = false) ∧
    (∃ (s : State) (o : Op), s.safe ∧ s.dev.sys.mode = .maintain ∧ s.dev.bist.privOp = some o.handle ∧ s.dev.host.ops = [o] ∧
      o.final = none ∧ o.fails1 = 0 ∧ s.dev.bist.privLeft = 0 ∧ s.dev.sys.mgrUp = true ∧ s.dev.bist.privRun = 1 ∧ isLive
      s.dev 0x060 = false) ∧
    (∃ (s : State) (o : Op), s.safe ∧ s.dev.sys.mode = .maintain ∧ s.dev.bist.privOp = some o.handle ∧ s.dev.host.ops = [o] ∧
      o.final = none ∧ o.fails1 = 0 ∧ s.dev.bist.privLeft = 0 ∧ s.dev.sys.mgrUp = true ∧ s.dev.bist.privRun = 8 ∧
      (s.dev.memSt 130).subst = [] ∧ spareFree (s.dev.memSt 130) 0 = true ∧ isLive s.dev 0x042 = false) ∧
    (∃ (s : State) (src reader : Fin 16) (o : Op), s.safe ∧ s.dev.sys.mode = .maintain ∧ s.dev.bist.privOp = some o.handle ∧
      s.dev.host.ops = [o] ∧ o.final = none ∧ o.fails1 = 0 ∧ s.dev.bist.privLeft = 0 ∧ s.dev.sys.mgrUp = true ∧
      s.dev.bist.privRun = 4 ∧ (filt (s.dev.port reader) src false).st = fOut) ∧
    (∃ (s : State) (src reader : Fin 16) (o : Op), s.safe ∧ s.dev.sys.mode = .maintain ∧ s.dev.bist.privOp = some o.handle ∧
      s.dev.host.ops = [o] ∧ o.final = none ∧ o.fails1 = 0 ∧ s.dev.bist.privLeft = 0 ∧ s.dev.sys.mgrUp = true ∧
      s.dev.bist.privRun = 4 ∧ (filt (s.dev.port reader) src true).st = fOut) :=
  ⟨⟨st up0, 0, by decide +kernel⟩,
   ⟨st { rig with bist := { rig.bist with cfg := 0 } }, by decide +kernel⟩,
   ⟨st (withOps [{ op5 (.bistRun 0 1 1) with left := 1 }] (linked .isolated (atP (bistP fun b =>
     { b with logicRun := true, op := some 5 })))), 0, 1, { op5 (.bistRun 0 1 1) with left := 1 }, by decide +kernel⟩,
   ⟨st rig, 0, by decide +kernel⟩,
   ⟨st (priv 0 8), 3, op5 (.bistRun 2 0 15), by decide +kernel⟩,
   ⟨st (priv 1 2), 1, op5 (.bistRun 2 0 15), by decide +kernel⟩,
   ⟨st (priv 0 8), 3, by decide +kernel⟩,
   ⟨st (priv 1 0), op5 (.bistRun 2 0 15), by decide +kernel⟩,
   ⟨st (priv 8 0), op5 (.bistRun 2 0 15), by decide +kernel⟩,
   ⟨st (priv 4 0), 0, 15, op5 (.bistRun 2 0 15), by decide +kernel⟩,
   ⟨st (priv 4 0), 0, 15, op5 (.bistRun 2 0 15), by decide +kernel⟩⟩

theorem meets_redundantPair :
    (∃ (s : State) (m : Master) (v : W32), s.safe ∧ s.dev.sys.mode = .run ∧ reachesAll m = true ∧ s.dev.pwr.pwOn = true ∧
      s.dev.clk.coreSrc ≠ 2 ∧ bit s.dev.pair.cfg 0 = false ∧ bit v 0 = true) ∧
    (∃ (s : State) (m : Master) (v : W32), s.safe ∧ s.dev.sys.mode = .run ∧ reachesAll m = true ∧ s.dev.pwr.pwOn = true ∧
      s.dev.clk.coreSrc ≠ 2 ∧ bit s.dev.pair.cfg 0 = true ∧ bit v 0 = false) ∧
    (∃ (s : State) (m : Master), s.safe ∧ s.dev.sys.mode = .run ∧ reachesAll m = false) ∧
    (∃ (s : State) (e : BitVec 5), s.safe ∧ s.dev.sys.mode = .run ∧ bit s.dev.pair.cfg 0 = true ∧ s.dev.pair.st = .join ∧
      s.dev.pair.joinLead = some e) ∧
    (∃ (s : State), s.safe ∧ s.dev.sys.mode = .run ∧ bit s.dev.pair.cfg 0 = true ∧ s.dev.pair.st = .join ∧
      s.dev.pair.joinLead = none ∧ fld s.dev.pair.cfg 2 1 = 1) ∧
    (∃ (s : State), s.safe ∧ s.dev.sys.mode = .run ∧ bit s.dev.pair.cfg 0 = true ∧ s.dev.pair.st = .join ∧
      s.dev.pair.joinLead = none ∧ fld s.dev.pair.cfg 2 1 = 2) ∧
    (∃ (s : State), s.safe ∧ s.dev.sys.mode = .run ∧ s.dev.pair.st ≠ .join) ∧
    (∃ (s : State), s.safe ∧ s.dev.sys.mode = .run ∧ bit s.dev.pair.cfg 0 = true ∧ s.dev.pair.st ≠ .off ∧ s.dev.pwr.pwOn =
      true) ∧
    (∃ (s : State), s.safe ∧ s.dev.sys.mode = .run ∧ s.dev.pwr.pwOn = false) ∧
    (∃ (s : State), s.safe ∧ s.dev.sys.mode = .run ∧ bit s.dev.pair.cfg 0 = true ∧ s.dev.pair.st = .follow ∧ isRaised s.dev
      0x070 = false ∧ isRaised s.dev 0x012 = false ∧ s.dev.clk.lpll = .locked ∧ s.dev.clk.lpllCfg >>> 26 = 0x1F) ∧
    (∃ (s : State), s.safe ∧ s.dev.sys.mode = .run ∧ bit s.dev.pair.cfg 0 = true ∧ s.dev.pair.st = .lead ∧ s.dev.clk.lpllIn ≠
      some .partyWall ∧ isRaised s.dev 0x070 = false) ∧
    (∃ (s : State), s.safe ∧ s.dev.sys.mode = .run ∧ bit s.dev.pair.cfg 0 = true ∧ s.dev.pair.st ≠ .off ∧ pwLocked s.dev =
      false ∧ isRaised s.dev 0x072 = false) ∧
    (∃ (s : State), s.safe ∧ s.dev.sys.mode = .run ∧ bit s.dev.pair.cfg 0 = true ∧ s.dev.pair.st ≠ .off ∧ pwLocked s.dev =
      true) ∧
    (∃ (s : State) (e : BitVec 5), s.safe ∧ s.dev.sys.mode = .run ∧ bit s.dev.pair.cfg 0 = true ∧ s.dev.pair.st = .confirm ∧
      s.dev.pair.heard = some e ∧ isLive s.dev 0x071 = false ∧ isRaised s.dev 0x071 = false ∧ mayTakeLead s.dev = true) ∧
    (∃ (s : State) (e : BitVec 5), s.safe ∧ s.dev.sys.mode = .run ∧ bit s.dev.pair.cfg 0 = true ∧ s.dev.pair.st = .confirm ∧
      s.dev.pair.heard = some e ∧ isLive s.dev 0x071 = false ∧ isRaised s.dev 0x071 = false ∧ mayTakeLead s.dev = false) ∧
    (∃ (s : State) (e : BitVec 5), s.safe ∧ s.dev.sys.mode = .run ∧ bit s.dev.pair.cfg 0 = true ∧ s.dev.pair.st = .hold ∧
      s.dev.pair.heard = some e ∧ isRaised s.dev 0x071 = false ∧ mayTakeLead s.dev = true) ∧
    (∃ (s : State) (e : BitVec 5), s.safe ∧ s.dev.sys.mode = .run ∧ bit s.dev.pair.cfg 0 = true ∧ s.dev.pair.st = .hold ∧
      s.dev.pair.heard = some e ∧ isRaised s.dev 0x071 = false ∧ mayTakeLead s.dev = false) ∧
    (∃ (s : State), s.safe ∧ s.dev.sys.mode = .run ∧ s.dev.pair.st ≠ .confirm) ∧
    (∃ (s : State), s.safe ∧ s.dev.sys.mode = .run ∧ s.dev.pair.st ≠ .hold) ∧
    (∃ (s : State) (b : BitVec 256), s.safe ∧ s.dev.sys.mode = .run ∧ bit s.dev.pair.cfg 0 = true ∧ s.dev.pair.st ≠ .off ∧
      s.dev.pwr.pwOn = true ∧ ((s.dev.lane 18).rx = .locked ∨ (s.dev.lane 19).rx = .locked) ∧ (parseHeartbeat b).correct =
      false) ∧
    (∃ (s : State) (b : BitVec 256), s.safe ∧ s.dev.sys.mode = .run ∧ bit s.dev.pair.cfg 0 = true ∧ s.dev.pair.st ≠ .off ∧
      s.dev.pwr.pwOn = true ∧ ((s.dev.lane 18).rx = .locked ∨ (s.dev.lane 19).rx = .locked) ∧ (parseHeartbeat b).correct =
      true ∧ (parseHeartbeat b).role = 1 ∧ s.dev.pair.st = .join) ∧
    (∃ (s : State) (b : BitVec 256), s.safe ∧ s.dev.sys.mode = .run ∧ bit s.dev.pair.cfg 0 = true ∧ s.dev.pair.st ≠ .off ∧
      s.dev.pwr.pwOn = true ∧ ((s.dev.lane 18).rx = .locked ∨ (s.dev.lane 19).rx = .locked) ∧ (parseHeartbeat b).correct =
      true ∧ (parseHeartbeat b).role = 1 ∧ s.dev.pair.st = .lead ∧ s.dev.pair.pepoch = (parseHeartbeat b).pepoch + 1) ∧
    (∃ (s : State) (b : BitVec 256), s.safe ∧ s.dev.sys.mode = .run ∧ bit s.dev.pair.cfg 0 = true ∧ s.dev.pair.st ≠ .off ∧
      s.dev.pwr.pwOn = true ∧ ((s.dev.lane 18).rx = .locked ∨ (s.dev.lane 19).rx = .locked) ∧ (parseHeartbeat b).correct =
      true ∧ (parseHeartbeat b).role = 1 ∧ s.dev.pair.st = .lead ∧ (parseHeartbeat b).pepoch = s.dev.pair.pepoch + 1 ∧
      (parseHeartbeat b).mode = 3) ∧
    (∃ (s : State) (b : BitVec 256) (x : Int), s.safe ∧ s.dev.sys.mode = .run ∧ bit s.dev.pair.cfg 0 = true ∧ s.dev.pair.st ≠
      .off ∧ s.dev.pwr.pwOn = true ∧ ((s.dev.lane 18).rx = .locked ∨ (s.dev.lane 19).rx = .locked) ∧ (parseHeartbeat
      b).correct = true ∧ (parseHeartbeat b).role = 1 ∧ s.dev.pair.st = .follow ∧ ((parseHeartbeat b).mode = 3 ∨
      (parseHeartbeat b).mode = 6) ∧ s.dev.pair.sentAt = [((parseHeartbeat b).echoSeq, x)] ∧ x + (parseHeartbeat b).echoTurn
      * 65536 ≤ s.dev.t16 ∧ s.dev.t16 < x + (parseHeartbeat b).echoTurn * 65536 + 65536 * 8192) ∧
    (∃ (s : State) (b : BitVec 256), s.safe ∧ s.dev.sys.mode = .run ∧ bit s.dev.pair.cfg 0 = true ∧ s.dev.pair.st ≠ .off ∧
      s.dev.pwr.pwOn = true ∧ ((s.dev.lane 18).rx = .locked ∨ (s.dev.lane 19).rx = .locked) ∧ (parseHeartbeat b).correct =
      true ∧ (parseHeartbeat b).role = 1 ∧ s.dev.pair.st = .follow ∧ (parseHeartbeat b).mode = 4) ∧
    (∃ (s : State) (b : BitVec 256), s.safe ∧ s.dev.sys.mode = .run ∧ bit s.dev.pair.cfg 0 = true ∧ s.dev.pair.st ≠ .off ∧
      s.dev.pwr.pwOn = true ∧ ((s.dev.lane 18).rx = .locked ∨ (s.dev.lane 19).rx = .locked) ∧ (parseHeartbeat b).correct =
      true ∧ (parseHeartbeat b).role = 1 ∧ (s.dev.pair.st = .confirm ∨ s.dev.pair.st = .hold) ∧ (parseHeartbeat b).mode = 3) ∧
    (∃ (s : State) (b : BitVec 256), s.safe ∧ s.dev.sys.mode = .run ∧ bit s.dev.pair.cfg 0 = true ∧ s.dev.pair.st ≠ .off ∧
      s.dev.pwr.pwOn = true ∧ ((s.dev.lane 18).rx = .locked ∨ (s.dev.lane 19).rx = .locked) ∧ (parseHeartbeat b).correct =
      true ∧ (parseHeartbeat b).role = 1 ∧ (s.dev.pair.st = .confirm ∨ s.dev.pair.st = .hold) ∧ (parseHeartbeat b).mode = 4) :=
  ⟨⟨st rig, .pf0, 1, by decide +kernel⟩,
   ⟨st (paired .follow), .pf0, 0, by decide +kernel⟩,
   ⟨st rig, .pf1, by decide +kernel⟩,
   ⟨st (paired .join fun p => { p with joinLead := some 31 }), 31, by decide +kernel⟩,
   ⟨st (paired .join fun p => { p with cfg := 3 }), by decide +kernel⟩,
   ⟨st (paired .join fun p => { p with cfg := 5 }), by decide +kernel⟩,
   ⟨st (paired .lead), by decide +kernel⟩,
   ⟨st (paired .lead), by decide +kernel⟩,
   ⟨st { paired .lead with pwr := { rig.pwr with pwOn := false } }, by decide +kernel⟩,
   ⟨st (clkd (fun c => { c with lpllCfg := 0x7C00_0000 }) (paired .follow)), by decide +kernel⟩,
   ⟨st (paired .lead), by decide +kernel⟩,
   ⟨st { rig with pair := { rig.pair with st := .lead, cfg := 1 } }, by decide +kernel⟩,
   ⟨st (paired .lead), by decide +kernel⟩,
   ⟨st (paired .confirm fun p => { p with heard := some 31 }), 31, by decide +kernel⟩,
   ⟨st (paired .confirm (fun p => { p with heard := some 31 }) allDual), 31, by decide +kernel⟩,
   ⟨st (paired .hold fun p => { p with heard := some 31 }), 31, by decide +kernel⟩,
   ⟨st (paired .hold (fun p => { p with heard := some 31 }) allDual), 31, by decide +kernel⟩,
   ⟨st (paired .hold), by decide +kernel⟩,
   ⟨st (paired .confirm), by decide +kernel⟩,
   ⟨st (paired .lead), 0, by decide +kernel⟩,
   ⟨st (paired .join), beat 0 .run, by decide +kernel⟩,
   ⟨st (paired .lead fun p => { p with pepoch := 1 }), beat 0 .run, by decide +kernel⟩,
   ⟨st (paired .lead), beat 1 .run, by decide +kernel⟩,
   ⟨st (paired .follow fun p => { p with sentAt := [((parseHeartbeat (beat 0 .reef)).echoSeq, 0)] }), beat 0 .reef, 0, by
     decide +kernel⟩,
   ⟨st (paired .follow), beat 0 .safe, by decide +kernel⟩,
   ⟨st (paired .hold), beat 0 .run, by decide +kernel⟩,
   ⟨st (paired .confirm), beat 0 .safe, by decide +kernel⟩⟩

theorem meets_portsApart :
    (∃ (n k : Fin 16), k ≠ n) :=
  ⟨1, 0, by decide +kernel⟩

end Sys2Proof.Tests
end

section
/-! The command rings: the record of an event, and the end of an operation whose buffer could not be read. -/
namespace Sys2Proof.Machine

/-! ### Bytes of a record -/

@[simp] theorem length_leBytes (k v : Nat) : (leBytes k v).length = k := by
  induction k generalizing v with
  | zero => rfl
  | succ k ih => simp [leBytes, ih]

@[simp] theorem length_padTo (k : Nat) (l : List W8) : (padTo k l).length = k := by simp [padTo]

theorem length_eventBytes (s : Stamp) (p : RPos) (type scope : Nat) (seq : W32) (h : W16) (late cont phase : Bool)
    (payload : List W8) : (eventBytes s p type scope seq h late cont phase payload).length = 64 := by
  simp [eventBytes]

/-- SEQ stands at bytes 4 to 7 of an event record (R355). -/
theorem eventBytes_seq (s : Stamp) (p : RPos) (type scope : Nat) (seq : W32) (h : W16) (late cont phase : Bool)
    (payload : List W8) :
    ((eventBytes s p type scope seq h late cont phase payload).drop 4).take 4 = leBytes 4 seq.toNat := by
  simp [eventBytes, List.drop_append, List.take_append]

/-! ### The message of a vector -/

@[simp] theorem ev_msix (d : Dev) (f g : Fn) (v : Nat) : ((msix d f v).fn g).ev = (d.fn g).ev := by
  unfold msix
  split
  · dsimp only
    split
    · by_cases hg : f = g
      · subst hg; simp
      · rw [Dev.fn_setFn_ne d f g hg]
    · simp
  · rfl

/-- A message takes back nothing of what has left before it. -/
theorem mem_out_msix {d : Dev} {o : Output} (f : Fn) (v : Nat) (h : o ∈ d.out) : o ∈ (msix d f v).out := by
  unfold msix
  split
  · dsimp only
    split
    · simpa using h
    · exact List.mem_cons_of_mem _ h
  · exact h

/-! ### An event for a function (R355, R357) -/

/-- The ring after a record: past its slot, with the phase turned where the ring wraps. -/
def EvRing.wrote (e : EvRing) : EvRing :=
  { e with
    prod := ringNext e.cfg e.prod, phase := if ringNext e.cfg e.prod == 0 then !e.phase else e.phase, seq := e.seq + 1 }

theorem eventTo_lost (d : Dev) (f : Fn) (s : Stamp) (p : RPos) (type scope : Nat) (payload : List W8) (h : W16)
    (late cont : Bool) (hr : (d.fn f).ev.st ≠ .run ∨ ringFull (d.fn f).ev.cfg (d.fn f).ev.prod (d.fn f).ev.cons = true) :
    eventTo d f s p type scope payload h late cont = modEv d f fun e => { e with lost := satInc e.lost, seq := e.seq + 1 } := by
  refine if_neg ?_
  rcases hr with stopped | full
  · simp [stopped]
  · simp [full]

theorem eventTo_written (d : Dev) (f : Fn) (s : Stamp) (p : RPos) (type scope : Nat) (payload : List W8) (h : W16)
    (late cont : Bool) (hr : (d.fn f).ev.st = .run)
    (hf : ringFull (d.fn f).ev.cfg (d.fn f).ev.prod (d.fn f).ev.cons = false) :
    eventTo d f s p type scope payload h late cont =
      msix ((modEv d f EvRing.wrote).emit (.memWrite f ((d.fn f).ev.base + BitVec.ofNat 64 ((d.fn f).ev.prod.toNat * 64))
        (eventBytes s p type scope (d.fn f).ev.seq h late cont (d.fn f).ev.phase payload))) f (fld (d.fn f).ev.cfg 29 24) :=
  if_pos (by simp [hr, hf])

@[simp] theorem ev_modEv (d : Dev) (f : Fn) (g : EvRing → EvRing) : ((modEv d f g).fn f).ev = g (d.fn f).ev := by
  simp [modEv]

/-- Settles O13: the two branches of `eventTo`; where the record is written, its message after it changes neither the ring nor
what has left. -/
theorem eventLoss : Obligations.eventLoss := by
  intro d f s p type scope payload h late cont
  refine ⟨eventTo_lost d f s p type scope payload h late cont, fun hr hf => ?_⟩
  rw [eventTo_written d f s p type scope payload h late cont hr hf]
  exact ⟨_, mem_out_msix _ _ (List.mem_cons_self ..), length_eventBytes .., eventBytes_seq .., by simp [EvRing.wrote]⟩

/-! ### The end of an operation -/

/-- An operation with the result that its FINAL completion carries. -/
def Op.endedBy (r : OpResult) (o : Op) : Op := { o with final := some r }

theorem findOp_modOp {d : Dev} {h : W16} {o : Op} {g : Op → Op} (ho : findOp d h = some o)
    (hg : ∀ x, (g x).handle = x.handle) : findOp (modOp d h g) h = some (g o) := by
  have hh : (o.handle == h) = true := List.find?_some (p := fun x : Op => x.handle == h) ho
  have hp : ((fun x : Op => x.handle == h) ∘ fun x => if x.handle == h then g x else x) = fun x => x.handle == h := by
    funext x
    simp only [Function.comp]
    split <;> simp [hg]
  unfold findOp modOp at *
  simp only [List.find?_map, hp, ho, Option.map_some, hh, if_true]

/-- A change of the operation of a handle leaves the others. -/
theorem otherOps_modOp (d : Dev) (h : W16) (g : Op → Op) (hg : ∀ x, (g x).handle = x.handle) :
    ((modOp d h g).host.ops.filter fun x => x.handle != h) = d.host.ops.filter fun x => x.handle != h := by
  unfold modOp
  dsimp only
  induction d.host.ops with
  | nil => rfl
  | cons x l ih => by_cases hx : x.handle = h <;> simp_all

@[simp] theorem ops_modFn (d : Dev) (f : Fn) (g : FnSt → FnSt) : (d.modFn f g).host.ops = d.host.ops := by cases f <;> rfl

theorem modFn_id (d : Dev) (f : Fn) : d.modFn f id = d := by cases f <;> rfl

/-- While the manager runs, an operation's end gives it its result and changes at most the registers of its function, for NEAR (R344). -/
theorem endWith_of_mgrUp (d : Dev) (o : Op) (st de : W16) (r0 r1 : W32) (hm : d.sys.mgrUp = true) :
    ∃ near, endWith o st de r0 r1 d = (modOp d o.handle (Op.endedBy ⟨st, de, r0, r1, d.stamp⟩)).modFn o.fn near := by
  have direct : endWith o st de r0 r1 d = if o.deadline == d.dt.dt && st != stTimeout then
      (modOp d o.handle (Op.endedBy ⟨st, de, r0, r1, d.stamp⟩)).modFn o.fn fun x => { x with near := satInc x.near }
      else modOp d o.handle (Op.endedBy ⟨st, de, r0, r1, d.stamp⟩) := by
    unfold endWith
    cases o.controller with
    | none => rfl
    | some n => simp only [modOp, hm, if_true]; rfl
  rw [direct]
  split
  · exact ⟨_, rfl⟩
  · exact ⟨id, (modFn_id _ _).symm⟩

/-! ### The failed read of a command's buffer (R364) -/

theorem final_of_readLength {o : Op} {len : Nat} (h : readLength o = some len) : o.final = none := by
  cases hf : o.final with
  | none => rfl
  | some r => simp [readLength, hf] at h

/-- What a failed read changes: the error is reported, and the operation that waits for the read ends. -/
theorem bufferRead_failed {d : Dev} {o : Op} {len : Nat} (err : DmaError) (failOffset : W16) (hm : d.sys.mgrUp = true)
    (ho : findOp d o.handle = some o) (hl : readLength o = some len) :
    ∃ near, bufferRead o.handle (.failed err) failOffset d =
      (modOp (d.emit (.aer o.fn err)) o.handle (Op.endedBy ⟨stDmaError, failOffset, 0, 0, d.stamp⟩)).modFn o.fn near := by
  have taken : bufferRead o.handle (.failed err) failOffset d =
      endWith o stDmaError failOffset 0 0 (d.emit (.aer o.fn err)) := by
    have ho' : findOp (d.emit (.aer o.fn err)) o.handle = some o := ho
    simp [bufferRead, hm, takeBuffer, ho, hl, endOp, ho', final_of_readLength hl]
  rw [taken]
  exact endWith_of_mgrUp (d.emit (.aer o.fn err)) o stDmaError failOffset 0 0 hm

/-- In a safe state a command that moves nothing but the rings, handles and messages leaves nothing to settle. -/
theorem onLive_of_offHost {s : State} {g : Dev → Dev} (hs : s.safe) (hp : powered s.dev = true)
    (hg : (g s.dev).offHost = s.dev.offHost) : onLive s g = .next { s with dev := g s.dev } := by
  obtain ⟨rest, pins⟩ := Bool.and_eq_true_iff.mp hs
  rw [onLive_next s g hp, settle_of_safe]
  · rw [← portsRest_offHost, hg, portsRest_offHost]; exact rest
  · rw [← pinsRight_offHost, hg, pinsRight_offHost]; exact pins

/-- Settles O24: each of the three commands waits for a read (`readLength`), whose failure is `bufferRead_failed`. -/
theorem failedBufferRead : Obligations.failedBufferRead := by
  intro s o failOffset err image last port offset len addr hs hp hm ho hfinal hstart hleft hcmd
  have hl : ∃ k, readLength o = some k := by
    rcases hcmd with hc | hc | hc <;> simp [readLength, hfinal, hstart, hleft, hc]
  obtain ⟨k, hl⟩ := hl
  obtain ⟨near, hb⟩ := bufferRead_failed err failOffset hm ho hl
  generalize hr : (⟨stDmaError, failOffset, 0, 0, s.dev.stamp⟩ : OpResult) = r at hb
  have kept : (bufferRead o.handle (.failed err) failOffset s.dev).offHost = s.dev.offHost := by simp [hb]
  have ended : findOp (bufferRead o.handle (.failed err) failOffset s.dev) o.handle = some (o.endedBy r) := by
    rw [hb, findOp, ops_modFn]
    exact findOp_modOp (d := s.dev.emit _) ho fun _ => rfl
  refine ⟨_, onLive_of_offHost hs hp kept, ?_, ?_, ?_, ?_⟩
  · simp [endedWith, ended, Op.endedBy, ← hr, stDmaError]
  · simp [ended, Op.endedBy, ← hr]
  · simp only [hb, ops_modFn]
    exact otherOps_modOp (s.dev.emit _) o.handle _ fun _ => rfl
  · have out : (bufferRead o.handle (.failed err) failOffset s.dev).out = .aer o.fn err :: s.dev.out := by
      rw [hb, Dev.modFn_out]; rfl
    rw [← out]
    exact Dev.eq_of_offHost kept

end Sys2Proof.Machine
end

section
/-! Register access: an aligned 4-byte access of a master, and the offsets at which no register stands. -/
namespace Sys2Proof.Machine

/-! ### The row of a master's access -/

theorem onRow_eq_onLive {s : State} (m : Master) (f : Dev → Dev) (hp : powered s.dev = true) :
    onRow true m s f = onLive s f := by
  rw [onLive_next s f hp, onRow, onDev_next]
  simp [hp]

/-! ### An aligned 4-byte access touches one word, whole (R382) -/

theorem touched_aligned {o : Nat} (ho : o % 4 = 0) : touched o 4 = [(o, true)] := by
  have first : o / 4 * 4 = o := by omega
  have last : (o + 3) / 4 * 4 = o := by omega
  simp [touched, first, last]

theorem accessOk_word (m : Master) (o : Nat) : accessOk ⟨m, false, o⟩ 4 = true := by simp [accessOk]

theorem accessWrite_aligned {o : Nat} (ho : o % 4 = 0) (m : Master) (v : W64) (d : Dev) :
    accessWrite ⟨m, false, o⟩ 4 v d = masterWrite d m false o true (wordAt v o o) := by
  simp [accessWrite, touched_aligned ho]

theorem accessRead_of_word {o : Nat} {m : Master} {d e : Dev} {w : W32} (ho : o % 4 = 0)
    (hr : masterRead d m false o true = (some w, e)) :
    accessRead ⟨m, false, o⟩ 4 d = e.emit (.readData m (w.setWidth 64)) := by
  have low : w.toNat % 4294967296 = w.toNat := Nat.mod_eq_of_lt w.isLt
  simp [accessRead, touched_aligned ho, readWords, hr, ho, low]

theorem accessRead_of_error {o : Nat} {m : Master} {d e : Dev} (ho : o % 4 = 0)
    (hr : masterRead d m false o true = (none, e)) : accessRead ⟨m, false, o⟩ 4 d = e := by
  simp [accessRead, touched_aligned ho, readWords, hr]

theorem exec_registerWrite (a : Access) (size : Nat) (v : W64) (s : State) :
    exec (.registerWrite a size v) s = onRow (accessOk a size) a.master s (accessWrite a size v) := rfl

theorem exec_rcRead (a : Access) (size : Nat) (s : State) :
    exec (.rcRead a size) s = onRow (accessOk a size) a.master s (accessRead a size) := rfl

theorem exec_registerWrite_aligned {s : State} {m : Master} {o : Nat} {e : Dev} (v : W64) (hs : s.safe)
    (hp : powered s.dev = true) (ho : o % 4 = 0) (hw : masterWrite s.dev m false o true (wordAt v o o) = e)
    (he : e.offHost = s.dev.offHost) : exec (.registerWrite ⟨m, false, o⟩ 4 v) s = .next { s with dev := e } := by
  have h : accessWrite ⟨m, false, o⟩ 4 v s.dev = e := (accessWrite_aligned ho m v s.dev).trans hw
  rw [exec_registerWrite, accessOk_word, onRow_eq_onLive m _ hp, onLive_of_offHost hs hp (by rw [h, he]), h]

theorem exec_rcRead_aligned {s : State} {m : Master} {o : Nat} {e : Dev} (hs : s.safe) (hp : powered s.dev = true)
    (h : accessRead ⟨m, false, o⟩ 4 s.dev = e) (he : e.offHost = s.dev.offHost) :
    exec (.rcRead ⟨m, false, o⟩ 4) s = .next { s with dev := e } := by
  rw [exec_rcRead, accessOk_word, onRow_eq_onLive m _ hp, onLive_of_offHost hs hp (by rw [h, he]), h]

/-! ### No register at the offset (R383), and no target behind it (R327, R408) -/

section
variable {d : Dev} {m : Master} {o r : Nat}

theorem masterWrite_reserved (w : W32) (ht : target d m false o = .reg r) (hr : regValue d m (place r) = none) :
    masterWrite d m false o true w = d := by simp [masterWrite, ht, writeWord, hr]

theorem masterRead_reserved (ht : target d m false o = .reg r) (hr : regValue d m (place r) = none) :
    masterRead d m false o true = (some 0, d) := by simp [masterRead, ht, readWord, hr]

theorem masterWrite_nothing (w : W32) (ht : target d m false o = .nothing) : masterWrite d m false o true w = d := by
  simp [masterWrite, ht]

theorem masterRead_nothing (ht : target d m false o = .nothing) : masterRead d m false o true = (some 0, d) := by
  simp [masterRead, ht]

theorem masterWrite_nack (w : W32) (ht : target d m false o = .nack) :
    masterWrite d m false o true w = d.emit (.errorResponse m) := by simp [masterWrite, ht]

theorem masterRead_nack (ht : target d m false o = .nack) :
    masterRead d m false o true = (none, d.emit (.errorResponse m)) := by simp [masterRead, ht]

theorem target_pf1_beyond (h : (0x1000 ≤ o ∧ o < 0x4000) ∨ 0x6000 ≤ o) : target d .pf1 false o = .nothing := by
  have box : ¬ o < 0x1000 := by omega
  have rings : ¬ (0x4000 ≤ o ∧ o < 0x6000) := by omega
  simp only [target, Bool.false_eq_true, if_false, if_neg box, if_neg rings]

theorem target_sb_beyond (h : 0x2000 ≤ o ∨ (0x1000 ≤ o ∧ d.boot.strap.sbSecure = false)) :
    target d .sb false o = .nack := by
  have box : ¬ o < 0x1000 := by omega
  have secure : ¬ (o < 0x2000 ∧ d.boot.strap.sbSecure = true) := by
    rintro ⟨below, on⟩
    rcases h with above | ⟨-, off⟩
    · omega
    · simp [on] at off
  simp only [target, if_neg box, if_neg secure]

end

/-- Settles O26: whether no register stands at the offset, or nothing at all, the word reads 0 and its write leaves the block as
it is; the sideband's refusal is its one output. -/
theorem reservedAccesses : Obligations.reservedAccesses := by
  intro s m o r v hs hp ho
  have emitted (x : Output) : (s.dev.emit x).offHost = s.dev.offHost := offHost_emit s.dev x
  refine ⟨fun ht hr => ⟨?_, ?_⟩, fun beyond => ⟨?_, ?_⟩, fun beyond => ⟨?_, ?_⟩⟩
  · exact exec_registerWrite_aligned v hs hp ho (masterWrite_reserved _ ht hr) rfl
  · exact exec_rcRead_aligned hs hp (accessRead_of_word ho (masterRead_reserved ht hr)) (emitted _)
  · exact exec_registerWrite_aligned v hs hp ho (masterWrite_nothing _ (target_pf1_beyond beyond)) rfl
  · exact exec_rcRead_aligned hs hp (accessRead_of_word ho (masterRead_nothing (target_pf1_beyond beyond))) (emitted _)
  · exact exec_registerWrite_aligned v hs hp ho (masterWrite_nack _ (target_sb_beyond beyond)) (emitted _)
  · exact exec_rcRead_aligned hs hp (accessRead_of_error ho (masterRead_nack (target_sb_beyond beyond))) (emitted _)

end Sys2Proof.Machine
end

section
/-! The confirmation of an image: what it changes in the boot record and in OTP (R436, R450). -/
namespace Sys2Proof.Machine

/-! ### The boot state of one kind of image -/

/-- The SVN of what runs of a kind. -/
def runningSvn (b : BootSt) (k : FwKind) : W8 := if k = .mgr then b.mgrSvn else b.pcSvn

/-- The OTP minimum after the confirmation of a kind: raised to the SVN that runs where that is higher and
an increment remains, of 32 in all (R436; that they reach every SVN up to 32 is assumption 24). -/
def confirmedMinimum (b : BootSt) (k : FwKind) : W8 :=
  if b.otpSvn < runningSvn b k ∧ runningSvn b k ≤ 32 then runningSvn b k else b.otpSvn

/-- A kind without its trial. -/
def clearTrial (b : BootSt) : FwKind → BootSt
  | .mgr => { b with mgrTrial := false }
  | .pc => { b with pcTrial := false }

theorem onTrial_clearTrial (b : BootSt) (k : FwKind) (flash : Flash) (minimum : W8) :
    onTrial { clearTrial b k with flash := flash, otpSvn := minimum } k = false := by cases k <;> rfl

/-! ### The confirmation -/

theorem exec_firmwareConfirmed (k : FwKind) (s : State) : exec (.firmwareConfirmed k) s = onLive s (confirmFw k) := rfl

theorem confirmFw_of_not_onTrial {k : FwKind} {d : Dev} (ht : onTrial d.boot k = false) : confirmFw k d = d := by
  simp [confirmFw, ht]

/-- All that a confirmation changes: TRIAL, the boot record in the flash, the OTP minimum, and what has left the block. -/
theorem confirmFw_of_onTrial {k : FwKind} {d : Dev} (ht : onTrial d.boot k = true) (hm : d.sys.mode = .run) :
    ∃ flash out, confirmFw k d = { d with
      boot := { clearTrial d.boot k with flash := flash, otpSvn := confirmedMinimum d.boot k }, out := out } := by
  have confirmed : (onTrial d.boot k && d.sys.mode == .run) = true := by simp [ht, hm]
  rw [confirmFw, if_pos confirmed, confirmedMinimum]
  by_cases raise : d.boot.otpSvn < runningSvn d.boot k ∧ runningSvn d.boot k ≤ 32
  · rw [if_pos raise]
    have guard := Bool.and_eq_true_iff.mpr (raise.imp decide_eq_true decide_eq_true)
    cases k <;> exact ⟨_, _, if_pos guard⟩
  · rw [if_neg raise]
    have guard := mt (fun g => (Bool.and_eq_true_iff.mp g).imp of_decide_eq_true of_decide_eq_true) raise
    cases k <;> exact ⟨_, _, if_neg guard⟩

theorem powered_of_run {d : Dev} (hm : d.sys.mode = .run) : powered d = true := by simp [powered, hm]

/-- Settles O33: in RUN the confirmation is `confirmFw_of_onTrial`, of which the command's end takes nothing back. -/
theorem confirmedImage : Obligations.confirmedImage := by
  intro s k hs hm
  have hp := powered_of_run hm
  rw [exec_firmwareConfirmed]
  constructor
  · intro ht
    obtain ⟨flash, out, hc⟩ := confirmFw_of_onTrial ht hm
    have free : forcesDown (confirmFw k s.dev).sys.mode = false := by simp [hc, hm, forcesDown]
    refine ⟨_, onLive_next s _ hp, ?_, ?_, ?_, ?_⟩
    · rw [settle_boot, hc]
      exact onTrial_clearTrial _ _ _ _
    · rw [settle_boot, hc]
      rfl
    · rw [settle_ports _ free, hc]
    · rw [settle_sys, hc]
  · intro ht
    have idle := confirmFw_of_not_onTrial ht
    rw [onLive_of_offHost hs hp (by rw [idle]), idle]

end Sys2Proof.Machine
end
